-- ==== Sys2Proof/Word.lean ====
section
/-! DEFINITION. The word types of the block: addresses are 16 bits and data is 8 bits (20_memory.md R60), a transaction
word is 32 bits (30_encoding.md R90). All values are unsigned (00_scope.md R9). -/

namespace Sys2Proof

/-- A data byte (R60). -/
abbrev Byte := BitVec 8

/-- A bus address (R60). -/
abbrev Addr := BitVec 16

/-- A transaction word (R90). -/
abbrev Word := BitVec 32

/-- An interrupt kind as the encoding carries it, D[2:0] (R93): 0..7. Kinds below `INT_KIND_COUNT` exist (R120). -/
abbrev Kind := Fin 8

/-- A line of a Joypad group (R200): 0..3. -/
abbrev Line := Fin 4

/-- A handle name or a host path: its characters in order. Names compare character by character (R262). -/
abbrev Name := List Char

/-- `BANK`, the bytes of a bank (R7, R40). -/
def bankSize : Nat := 16384

end Sys2Proof
end

