-- ==== Sys2Proof/Config.lean ====
section
/-! DEFINITION. What an implementation of the block fixes (00_scope.md R7) and the values the spec leaves free
(00_scope.md R11). The numeric parameters are the fields of `Config`; the two parameters that are functions, and every
draw, are constants with no body, so nothing can be proved of their values. -/

namespace Sys2Proof

/-- A sample of the host wall clock (43_rtc.md R231) as broken-down time to the second (log 2: DESIGN CHOICE). -/
structure WallTime where
  second : Fin 60
  minute : Fin 60
  hour : Fin 24
  dayOfYear : Fin 366
deriving DecidableEq, Repr, Inhabited

/-- Seconds since the start of the sample's day. -/
def WallTime.secondOfDay (w : WallTime) : Nat := w.hour.val * 3600 + w.minute.val * 60 + w.second.val

/-- `w'` may be the sample one second after `w` (R231, "two samples in adjacent seconds"). A year ends after day-of-year
364 or 365. -/
abbrev WallTime.Adjacent (w w' : WallTime) : Prop :=
  (w'.dayOfYear = w.dayOfYear ∧ w'.secondOfDay = w.secondOfDay + 1) ∨
  (w.secondOfDay = 86399 ∧ w'.secondOfDay = 0 ∧
    (w'.dayOfYear.val = w.dayOfYear.val + 1 ∨ (364 ≤ w.dayOfYear.val ∧ w'.dayOfYear.val = 0)))

/-- The five RTC fields a sample derives (R231). -/
structure RtcFields where
  seconds : Byte
  minutes : Byte
  hours : Byte
  dayLow : Byte
  dayHigh : Byte
deriving DecidableEq, Repr, Inhabited

/-- Which `RTC_DERIVE` an instance has (R7, R231): the test form of R231, or the implementation's own function. -/
inductive RtcDerive where
  /-- the test form of R231, used by instantiation T -/
  | testForm
  /-- the implementation's function, of which nothing is known -/
  | implementation
deriving DecidableEq, Repr

/-- The parameters of 00_scope.md R7, but for the two functions. Constant for an instance. -/
structure Config where
  intKindCount : Nat
  kindTimer : Kind
  kindJoypad : Kind
  kindRtc : Kind
  ifReset : Byte
  addrIf : Addr
  addrIe : Addr
  addrDiv : Addr
  addrTima : Addr
  addrTma : Addr
  addrTac : Addr
  addrJoyp : Addr
  addrRtcS : Addr
  addrRtcM : Addr
  addrRtcH : Addr
  addrRtcDl : Addr
  addrRtcDh : Addr
  addrRtcLatch : Addr
  addrBankHi : Addr
  addrBankLo : Addr
  divReset : BitVec 16
  timaReset : Byte
  tmaReset : Byte
  tacSpeedReset : BitVec 2
  tacEnabledReset : Bool
  joypSelButtonsReset : Bool
  joypSelDPadReset : Bool
  defaultBankCount : Nat
  rtcDerive : RtcDerive
deriving DecidableEq, Repr

/-- The fifteen register addresses `ADDR_*` (R7). -/
def Config.addresses (c : Config) : List Addr :=
  [c.addrIf, c.addrIe, c.addrDiv, c.addrTima, c.addrTma, c.addrTac, c.addrJoyp, c.addrRtcS, c.addrRtcM, c.addrRtcH,
    c.addrRtcDl, c.addrRtcDh, c.addrRtcLatch, c.addrBankHi, c.addrBankLo]

/-- The constraints R7 puts on the parameters. -/
abbrev Config.Valid (c : Config) : Prop :=
  3 ≤ c.intKindCount ∧ c.intKindCount ≤ 8 ∧
  c.kindTimer.val < c.intKindCount ∧ c.kindJoypad.val < c.intKindCount ∧ c.kindRtc.val < c.intKindCount ∧
  c.kindTimer ≠ c.kindJoypad ∧ c.kindTimer ≠ c.kindRtc ∧ c.kindJoypad ≠ c.kindRtc ∧
  c.addresses.Nodup ∧ (∀ a ∈ c.addresses, 0x8000 ≤ a.toNat) ∧
  1 ≤ c.defaultBankCount ∧ c.defaultBankCount ≤ 65536

/-- Instantiation T (00_scope.md R8), not normative. It is the configuration of `State.reset` (log 1: DESIGN CHOICE). -/
def Config.instT : Config where
  intKindCount := 5
  kindTimer := 2
  kindJoypad := 4
  kindRtc := 3
  ifReset := 0xE0#8
  addrIf := 0xFF0F#16
  addrIe := 0xFFFF#16
  addrDiv := 0xFF04#16
  addrTima := 0xFF05#16
  addrTma := 0xFF06#16
  addrTac := 0xFF07#16
  addrJoyp := 0xFF00#16
  addrRtcS := 0xFF60#16
  addrRtcM := 0xFF61#16
  addrRtcH := 0xFF62#16
  addrRtcDl := 0xFF63#16
  addrRtcDh := 0xFF64#16
  addrRtcLatch := 0xFF65#16
  addrBankHi := 0xFF66#16
  addrBankLo := 0xFF67#16
  divReset := 0x0000#16
  timaReset := 0x00#8
  tmaReset := 0x00#8
  tacSpeedReset := 0#2
  tacEnabledReset := false
  joypSelButtonsReset := false
  joypSelDPadReset := false
  defaultBankCount := 4
  rtcDerive := .testForm

/-! ### The two parameters that are functions (R7) -/

/-- `RTC_DERIVE` of an implementation (R7, R231). -/
opaque Config.rtcImplementation : WallTime → RtcFields

/-- `BANK_INIT_CONTENT(bank, offset)` (R7, R40). -/
opaque Config.bankInitContent : Nat → Nat → Byte

/-- The test form of R231: `dayLow = dayOfYear mod 256`, `dayHigh = dayOfYear div 256`. -/
def WallTime.testForm (w : WallTime) : RtcFields where
  seconds := BitVec.ofNat 8 w.second.val
  minutes := BitVec.ofNat 8 w.minute.val
  hours := BitVec.ofNat 8 w.hour.val
  dayLow := BitVec.ofNat 8 (w.dayOfYear.val % 256)
  dayHigh := BitVec.ofNat 8 (w.dayOfYear.val / 256)

/-- `RTC_DERIVE` of an instance (R231). -/
def RtcDerive.derive : RtcDerive → WallTime → RtcFields
  | .testForm, w => w.testForm
  | .implementation, w => Config.rtcImplementation w

/-- The constraint R231 puts on `RTC_DERIVE`: two samples in adjacent seconds give unequal fields. (That equal samples
give equal fields is what being a function says.) -/
def RtcDerive.Lawful (d : RtcDerive) : Prop := ∀ w w' : WallTime, w.Adjacent w' → d.derive w ≠ d.derive w'

/-! ### The draws (R11): free values, one for each name and draw number (log 6) -/

/-- `draw tacHigh`: bits 7:3 of a TAC read (41_timer.md R167). -/
opaque Config.drawTacHigh : Nat → BitVec 5

/-- `draw joypHigh`: bits 7:6 of a JOYP read (42_joypad.md R204). -/
opaque Config.drawJoypHigh : Nat → BitVec 2

/-- `draw joypNone`: bits 3:0 of a JOYP read with neither group selected (42_joypad.md R204). -/
opaque Config.drawJoypNone : Nat → BitVec 4

/-- `draw latchRead`: a read of the RTC latch trigger (43_rtc.md R240). -/
opaque Config.drawLatchRead : Nat → BitVec 8

/-- `draw bankHiRead` (44_data_store.md R282). -/
opaque Config.drawBankHiRead : Nat → BitVec 8

/-- `draw bankLoRead` (44_data_store.md R283). -/
opaque Config.drawBankLoRead : Nat → BitVec 8

/-- `draw newBank`: draw number, bank and offset give the byte a bank added by SETBANKCOUNT holds there (R260). -/
opaque Config.drawNewBank : Nat → Nat → Nat → BitVec 8

end Sys2Proof
end

