-- ==== Sys2Proof/Syntax.lean ====
section
/-! DEFINITION. The transactions as syntax: one constructor of `Instr` for each row of spec/opcode_table.json
(30_encoding.md R94, R95), the payload (R92), the host's answers (00_scope.md R10) and the pseudo-instructions (R102). -/

namespace Sys2Proof

/-- A Joypad group (42_joypad.md R200). -/
inductive Group where
  | buttons
  | dPad
deriving DecidableEq, Repr

/-- A handle record (10_state.md R43): `address` is the offset within the bank. -/
structure Handle where
  length : Nat
  address : Nat
  bank : BitVec 16
deriving DecidableEq, Repr

/-- What a bus address names (20_memory.md R62). -/
inductive Target where
  | rom0 | romx | IF | IE | div | tima | tma | tac | joyp | rtcS | rtcM | rtcH | rtcDl | rtcDh | rtcLatch | bankHi | bankLo
  | unmapped
deriving DecidableEq, Repr

/-- A transaction with its operands. Names follow the opcode table; `rd` and `wr` constructors are RD and WR of one target. -/
inductive Instr where
  | tick
  | req (k : Kind)
  | cancel (k : Kind)
  | setie (k : Kind) (f : Bool)
  | setime (f : Bool)
  | service
  | reti
  | sethandler (k : Kind) (p : Bool)
  | hret (r : Bool)
  | press (g : Group) (l : Line)
  | release (g : Group) (l : Line)
  | latch
  | setbankcount (n : Nat)
  | setbank (n : BitVec 16)
  | load (f : Bool) (name : Name) (bytes : List Byte)
  | loadfile (f : Bool) (name : Name) (path : Name)
  | gotoHandle (h : Handle)
  | readbyte (a : Addr)
  | lookup (name : Name)
  | rdRom0 (a : BitVec 14)
  | wrRom0 (a : BitVec 14) (v : Byte)
  | rdRomx (a : BitVec 14)
  | wrRomx (a : BitVec 14) (v : Byte)
  | rdIf
  | wrIf (v : Byte)
  | rdIe
  | wrIe (v : Byte)
  | rdDiv
  | wrDiv (v : Byte)
  | rdTima
  | wrTima (v : Byte)
  | rdTma
  | wrTma (v : Byte)
  | rdTac
  | wrTac (v : Byte)
  | rdJoyp
  | wrJoyp (v : Byte)
  | rdRtcS
  | wrRtcS (v : Byte)
  | rdRtcM
  | wrRtcM (v : Byte)
  | rdRtcH
  | wrRtcH (v : Byte)
  | rdRtcDl
  | wrRtcDl (v : Byte)
  | rdRtcDh
  | wrRtcDh (v : Byte)
  | rdRtcLatch
  | wrRtcLatch (v : Byte)
  | rdBankHi
  | wrBankHi (v : Byte)
  | rdBankLo
  | wrBankLo (v : Byte)
  | rdUnmapped (a : Addr)
  | wrUnmapped (a : Addr) (v : Byte)
deriving DecidableEq, Repr

/-- The out-of-band operands of a transaction (R92). LOAD reads `name` and `bytes`, LOADFILE `name` and `path`, LOOKUP
`name`, GOTO `handle`; the other operations read none of it (log 12). -/
structure Payload where
  name : Name := []
  bytes : List Byte := []
  path : Name := []
  handle : Handle := ⟨0, 0, 0#16⟩
deriving DecidableEq, Repr

/-- The host's answers to what one transaction asks (00_scope.md R10): `WallTime()` (R231), `Alloc()` (R263) and
`FileRead(path)` (R266), where `none` is `Error`. -/
structure HostAnswers where
  wall : WallTime
  alloc : Bool
  file : Option (List Byte)
deriving DecidableEq, Repr

/-- One transaction as the driving caller issues it: the word, its payload, and the host's answers (R6, R90). -/
structure Transaction where
  word : Word
  payload : Payload
  answers : HostAnswers
deriving DecidableEq, Repr

/-- The pseudo-instructions of R102. -/
inductive Pseudo where
  | ticks (n : Nat)
  | ei
  | di
  | setbank16 (n : BitVec 16)
  | clrif
  | selectBtn
  | selectDPad
  | selectBoth
  | selectNone
deriving DecidableEq, Repr

end Sys2Proof
end

