-- ==== Sys2Proof/WellFormed.lean ====
section
/-! DEFINITION. Which terms of `Instr` are transactions of the block: the conditions on operands that their types do not
already express. -/

namespace Sys2Proof

/-- The widths of a handle record (10_state.md R43): `length` and `address` are 0..16384. -/
def Handle.wellFormed (h : Handle) : Bool := decide (h.length ≤ bankSize) && decide (h.address ≤ bankSize)

/-- A payload whose handle record is within R43's widths. -/
def Payload.wellFormed (p : Payload) : Bool := p.handle.wellFormed

/-- An address that is unmapped (20_memory.md R69): at or above 0x8000 and no `ADDR_*` parameter. -/
def Config.unmapped (c : Config) (a : Addr) : Bool := decide (0x8000 ≤ a.toNat) && !c.addresses.contains a

/-- A well-formed transaction: SETBANKCOUNT's count is 1..65536 (R93), GOTO's record is within R43's widths, and an
address given to RD UNMAPPED or WR UNMAPPED is unmapped (R312, R313). Every other operand is legal as typed: a kind at or
above `INT_KIND_COUNT` and an invalid name are well-formed and fault when the transaction is performed (R98, R262). -/
def Instr.wellFormed (c : Config) : Instr → Bool
  | .setbankcount n => decide (1 ≤ n) && decide (n ≤ 65536)
  | .gotoHandle h => h.wellFormed
  | .rdUnmapped a => c.unmapped a
  | .wrUnmapped a _ => c.unmapped a
  | .tick | .req _ | .cancel _ | .setie _ _ | .setime _ | .service | .reti | .sethandler _ _ | .hret _ => true
  | .press _ _ | .release _ _ | .latch | .setbank _ | .load _ _ _ | .loadfile _ _ _ | .readbyte _ | .lookup _ => true
  | .rdRom0 _ | .wrRom0 _ _ | .rdRomx _ | .wrRomx _ _ => true
  | .rdIf | .wrIf _ | .rdIe | .wrIe _ | .rdDiv | .wrDiv _ | .rdTima | .wrTima _ | .rdTma | .wrTma _ | .rdTac | .wrTac _ => true
  | .rdJoyp | .wrJoyp _ | .rdRtcS | .wrRtcS _ | .rdRtcM | .wrRtcM _ | .rdRtcH | .wrRtcH _ | .rdRtcDl | .wrRtcDl _ => true
  | .rdRtcDh | .wrRtcDh _ | .rdRtcLatch | .wrRtcLatch _ | .rdBankHi | .wrBankHi _ | .rdBankLo | .wrBankLo _ => true

end Sys2Proof
end

