-- ==== Sys2Proof/Decode.lean ====
section
/-! DEFINITION. The transaction word of 30_encoding.md: the address decode (20_memory.md R62), the decoder (R96), total
on every word and payload and rejecting by name, then the encoder (R91, R93), the rows of the opcode map (R94) and the
pseudo-instructions (R102). -/

namespace Sys2Proof

/-- Why a word is rejected (R97). Both raise `IllegalOperation`. -/
inductive Reject where
  /-- the OP value is reserved (R94) -/
  | reservedOperation
  /-- a reserved field holds a non-zero bit (R91) -/
  | reservedField
deriving DecidableEq, Repr

/-- `decode(a)` of R62. -/
def decodeAddr (c : Config) (a : Addr) : Target :=
  if a.toNat ≤ 0x3FFF then .rom0
  else if a.toNat ≤ 0x7FFF then .romx
  else if a = c.addrIf then .IF
  else if a = c.addrIe then .IE
  else if a = c.addrDiv then .div
  else if a = c.addrTima then .tima
  else if a = c.addrTma then .tma
  else if a = c.addrTac then .tac
  else if a = c.addrJoyp then .joyp
  else if a = c.addrRtcS then .rtcS
  else if a = c.addrRtcM then .rtcM
  else if a = c.addrRtcH then .rtcH
  else if a = c.addrRtcDl then .rtcDl
  else if a = c.addrRtcDh then .rtcDh
  else if a = c.addrRtcLatch then .rtcLatch
  else if a = c.addrBankHi then .bankHi
  else if a = c.addrBankLo then .bankLo
  else .unmapped

/-- RD is selected by the target of its address (R95, 45_register_bus.md R310). A window operand is the 14-bit offset. -/
def decodeRead (c : Config) (a : Addr) : Instr :=
  match decodeAddr c a with
  | .rom0 => .rdRom0 (a.setWidth 14)
  | .romx => .rdRomx (a.setWidth 14)
  | .IF => .rdIf
  | .IE => .rdIe
  | .div => .rdDiv
  | .tima => .rdTima
  | .tma => .rdTma
  | .tac => .rdTac
  | .joyp => .rdJoyp
  | .rtcS => .rdRtcS
  | .rtcM => .rdRtcM
  | .rtcH => .rdRtcH
  | .rtcDl => .rdRtcDl
  | .rtcDh => .rdRtcDh
  | .rtcLatch => .rdRtcLatch
  | .bankHi => .rdBankHi
  | .bankLo => .rdBankLo
  | .unmapped => .rdUnmapped a

/-- WR is selected by the target of its address (R95, 45_register_bus.md R310). -/
def decodeWrite (c : Config) (a : Addr) (v : Byte) : Instr :=
  match decodeAddr c a with
  | .rom0 => .wrRom0 (a.setWidth 14) v
  | .romx => .wrRomx (a.setWidth 14) v
  | .IF => .wrIf v
  | .IE => .wrIe v
  | .div => .wrDiv v
  | .tima => .wrTima v
  | .tma => .wrTma v
  | .tac => .wrTac v
  | .joyp => .wrJoyp v
  | .rtcS => .wrRtcS v
  | .rtcM => .wrRtcM v
  | .rtcH => .wrRtcH v
  | .rtcDl => .wrRtcDl v
  | .rtcDh => .wrRtcDh v
  | .rtcLatch => .wrRtcLatch v
  | .bankHi => .wrBankHi v
  | .bankLo => .wrBankLo v
  | .unmapped => .wrUnmapped a v

/-- OP, w[31:24] (R90). -/
def fieldOp (w : Word) : BitVec 8 := w.extractLsb' 24 8

/-- A, w[23:8] (R90). -/
def fieldA (w : Word) : Addr := w.extractLsb' 8 16

/-- D, w[7:0] (R90). -/
def fieldD (w : Word) : Byte := w.extractLsb' 0 8

/-- The kind operand `k = zext(D[2:0])` (R93). -/
def kindOf (d : Byte) : Kind := ⟨d.toNat % 8, Nat.mod_lt _ (by decide)⟩

/-- The line operand `D[1:0]` (R93). -/
def lineOf (d : Byte) : Line := ⟨d.toNat % 4, Nat.mod_lt _ (by decide)⟩

/-- The group operand: Buttons if D[2] = 0, DPad if D[2] = 1 (R93). -/
def groupOf (d : Byte) : Group := if d.getLsbD 2 then .dPad else .buttons

/-- An operation whose reserved fields must be zero (R96). -/
def checked (reservedZero : Bool) (i : Instr) : Except Reject Instr :=
  if reservedZero then .ok i else .error .reservedField

/-- `decodeTx` of R96, on a word and its payload. -/
def decode (c : Config) (w : Word) (p : Payload) : Except Reject Instr :=
  let a := fieldA w
  let d := fieldD w
  let noA := decide (a = 0#16)
  let noD := decide (d = 0#8)
  let d73 := decide (d.extractLsb' 3 5 = 0#5)
  let d63 := decide (d.extractLsb' 3 4 = 0#4)
  let d71 := decide (d.extractLsb' 1 7 = 0#7)
  if fieldOp w = 0x01#8 then checked noD (decodeRead c a)
  else if fieldOp w = 0x02#8 then .ok (decodeWrite c a d)
  else if fieldOp w = 0x03#8 then checked (noA && noD) .tick
  else if fieldOp w = 0x10#8 then checked (noA && d73) (.req (kindOf d))
  else if fieldOp w = 0x11#8 then checked (noA && d73) (.cancel (kindOf d))
  else if fieldOp w = 0x12#8 then checked (noA && d63) (.setie (kindOf d) (d.getLsbD 7))
  else if fieldOp w = 0x13#8 then checked (noA && d71) (.setime (d.getLsbD 0))
  else if fieldOp w = 0x14#8 then checked (noA && noD) .service
  else if fieldOp w = 0x15#8 then checked (noA && noD) .reti
  else if fieldOp w = 0x16#8 then checked (noA && d63) (.sethandler (kindOf d) (d.getLsbD 7))
  else if fieldOp w = 0x17#8 then checked (noA && d71) (.hret (d.getLsbD 0))
  else if fieldOp w = 0x20#8 then checked (noA && d73) (.press (groupOf d) (lineOf d))
  else if fieldOp w = 0x21#8 then checked (noA && d73) (.release (groupOf d) (lineOf d))
  else if fieldOp w = 0x30#8 then checked (noA && noD) .latch
  else if fieldOp w = 0x40#8 then checked noD (.setbankcount (a.toNat + 1))
  else if fieldOp w = 0x41#8 then checked noD (.setbank a)
  else if fieldOp w = 0x42#8 then checked (noA && d71) (.load (d.getLsbD 0) p.name p.bytes)
  else if fieldOp w = 0x43#8 then checked (noA && d71) (.loadfile (d.getLsbD 0) p.name p.path)
  else if fieldOp w = 0x44#8 then checked (noA && noD) (.gotoHandle p.handle)
  else if fieldOp w = 0x45#8 then checked noD (.readbyte a)
  else if fieldOp w = 0x46#8 then checked (noA && noD) (.lookup p.name)
  else .error .reservedOperation

/-! ### The encoder (R91, R93, R94) -/

/-- The word of the three fields (R90): OP in the high part. -/
def mkWord (op : BitVec 8) (a : Addr) (d : Byte) : Word := op ++ a ++ d

/-- Format F and FP: `D[0] = f`. -/
def dF (f : Bool) : Byte := if f then 0x01#8 else 0x00#8

/-- Format K: `D[2:0] = k`. -/
def dK (k : Kind) : Byte := BitVec.ofNat 8 k.val

/-- Format KF: `D[7] = f`, `D[2:0] = k`. -/
def dKF (k : Kind) (f : Bool) : Byte := (if f then 0x80#8 else 0x00#8) ||| BitVec.ofNat 8 k.val

/-- Format J: `D[2] = g`, `D[1:0] = l`. -/
def dJ (g : Group) (l : Line) : Byte :=
  (match g with | .buttons => 0x00#8 | .dPad => 0x04#8) ||| BitVec.ofNat 8 l.val

/-- RD of an address, format B. -/
def rdWord (a : Addr) : Word := mkWord 0x01#8 a 0#8

/-- WR of an address, format B. -/
def wrWord (a : Addr) (v : Byte) : Word := mkWord 0x02#8 a v

/-- The word of a transaction (R91, R94, R95). -/
def encode (c : Config) : Instr → Word
  | .tick => mkWord 0x03#8 0#16 0#8
  | .req k => mkWord 0x10#8 0#16 (dK k)
  | .cancel k => mkWord 0x11#8 0#16 (dK k)
  | .setie k f => mkWord 0x12#8 0#16 (dKF k f)
  | .setime f => mkWord 0x13#8 0#16 (dF f)
  | .service => mkWord 0x14#8 0#16 0#8
  | .reti => mkWord 0x15#8 0#16 0#8
  | .sethandler k p => mkWord 0x16#8 0#16 (dKF k p)
  | .hret r => mkWord 0x17#8 0#16 (dF r)
  | .press g l => mkWord 0x20#8 0#16 (dJ g l)
  | .release g l => mkWord 0x21#8 0#16 (dJ g l)
  | .latch => mkWord 0x30#8 0#16 0#8
  | .setbankcount n => mkWord 0x40#8 (BitVec.ofNat 16 (n - 1)) 0#8
  | .setbank n => mkWord 0x41#8 n 0#8
  | .load f _ _ => mkWord 0x42#8 0#16 (dF f)
  | .loadfile f _ _ => mkWord 0x43#8 0#16 (dF f)
  | .gotoHandle _ => mkWord 0x44#8 0#16 0#8
  | .readbyte a => mkWord 0x45#8 a 0#8
  | .lookup _ => mkWord 0x46#8 0#16 0#8
  | .rdRom0 a => rdWord (0b00#2 ++ a)
  | .wrRom0 a v => wrWord (0b00#2 ++ a) v
  | .rdRomx a => rdWord (0b01#2 ++ a)
  | .wrRomx a v => wrWord (0b01#2 ++ a) v
  | .rdIf => rdWord c.addrIf
  | .wrIf v => wrWord c.addrIf v
  | .rdIe => rdWord c.addrIe
  | .wrIe v => wrWord c.addrIe v
  | .rdDiv => rdWord c.addrDiv
  | .wrDiv v => wrWord c.addrDiv v
  | .rdTima => rdWord c.addrTima
  | .wrTima v => wrWord c.addrTima v
  | .rdTma => rdWord c.addrTma
  | .wrTma v => wrWord c.addrTma v
  | .rdTac => rdWord c.addrTac
  | .wrTac v => wrWord c.addrTac v
  | .rdJoyp => rdWord c.addrJoyp
  | .wrJoyp v => wrWord c.addrJoyp v
  | .rdRtcS => rdWord c.addrRtcS
  | .wrRtcS v => wrWord c.addrRtcS v
  | .rdRtcM => rdWord c.addrRtcM
  | .wrRtcM v => wrWord c.addrRtcM v
  | .rdRtcH => rdWord c.addrRtcH
  | .wrRtcH v => wrWord c.addrRtcH v
  | .rdRtcDl => rdWord c.addrRtcDl
  | .wrRtcDl v => wrWord c.addrRtcDl v
  | .rdRtcDh => rdWord c.addrRtcDh
  | .wrRtcDh v => wrWord c.addrRtcDh v
  | .rdRtcLatch => rdWord c.addrRtcLatch
  | .wrRtcLatch v => wrWord c.addrRtcLatch v
  | .rdBankHi => rdWord c.addrBankHi
  | .wrBankHi v => wrWord c.addrBankHi v
  | .rdBankLo => rdWord c.addrBankLo
  | .wrBankLo v => wrWord c.addrBankLo v
  | .rdUnmapped a => rdWord a
  | .wrUnmapped a v => wrWord a v

/-- The payload of a transaction (R92); empty for an operation that carries none. -/
def payloadOf : Instr → Payload
  | .load _ name bytes => { name := name, bytes := bytes }
  | .loadfile _ name path => { name := name, path := path }
  | .gotoHandle h => { handle := h }
  | .lookup name => { name := name }
  | _ => {}

/-- The opcode map (R94) with the reserved bits of its formats (R91), one (mask, match) pair for each OP value: a word
names an operation exactly when it agrees with some pair's match on that pair's mask (R97, R99). -/
def opcodeMap : List (Word × Word) :=
  [(0xFF0000FF#32, 0x01000000#32), (0xFF000000#32, 0x02000000#32), (0xFFFFFFFF#32, 0x03000000#32),
   (0xFFFFFFF8#32, 0x10000000#32), (0xFFFFFFF8#32, 0x11000000#32), (0xFFFFFF78#32, 0x12000000#32),
   (0xFFFFFFFE#32, 0x13000000#32), (0xFFFFFFFF#32, 0x14000000#32), (0xFFFFFFFF#32, 0x15000000#32),
   (0xFFFFFF78#32, 0x16000000#32), (0xFFFFFFFE#32, 0x17000000#32), (0xFFFFFFF8#32, 0x20000000#32),
   (0xFFFFFFF8#32, 0x21000000#32), (0xFFFFFFFF#32, 0x30000000#32), (0xFF0000FF#32, 0x40000000#32),
   (0xFF0000FF#32, 0x41000000#32), (0xFFFFFFFE#32, 0x42000000#32), (0xFFFFFFFE#32, 0x43000000#32),
   (0xFFFFFFFF#32, 0x44000000#32), (0xFF0000FF#32, 0x45000000#32), (0xFFFFFFFF#32, 0x46000000#32)]

/-! ### Words numbered as the opcode table numbers them -/

/-- The payload that a bare word is given when it is run on its own (log 13: DESIGN CHOICE). -/
def Payload.sample : Payload := { name := ['a'], bytes := [0x00#8], path := ['f'], handle := ⟨1, 0, 0#16⟩ }

/-- The host's answers that a bare word is given when it is run on its own (log 13: DESIGN CHOICE). -/
def HostAnswers.sample : HostAnswers := { wall := ⟨0, 0, 0, 0⟩, alloc := true, file := some [0x00#8] }

/-- The instruction the decoder reads from a word of the opcode table, under the configuration of `State.reset`
(log 1, log 13). A transaction is one 32-bit word (R100), so the word is its own numbering and no byte order enters. -/
def decodeTableWord (nbits w : Nat) : Option Instr :=
  match decode Config.instT (BitVec.ofNat 32 (w % 2 ^ nbits)) Payload.sample with
  | .ok i => some i
  | .error _ => none

/-! ### Pseudo-instructions (R102) -/

/-- The expansion of a pseudo-instruction (R102). -/
def Pseudo.expand : Pseudo → List Instr
  | .ticks n => List.replicate n .tick
  | .ei => [.setime true]
  | .di => [.setime false]
  | .setbank16 n => [.wrBankHi (n.extractLsb' 8 8), .wrBankLo (n.extractLsb' 0 8)]
  | .clrif => [.wrIf 0x00#8]
  | .selectBtn => [.wrJoyp 0x10#8]
  | .selectDPad => [.wrJoyp 0x20#8]
  | .selectBoth => [.wrJoyp 0x00#8]
  | .selectNone => [.wrJoyp 0x30#8]

end Sys2Proof
end

