-- ==== Sys2Proof/Machine/State.lean ====
section
/-! DEFINITION. The state of one bus instance (10_state.md R46), the responses (00_scope.md R12), the fault codes
(60_exceptions.md R330), the launch state (70_reset_and_hazards.md R370) and `State.reset`. -/

namespace Sys2Proof.Machine

/-- The fault codes of R330. A fault of the block is state (`State.fault`), not a stop of the model (log 10). -/
inductive FaultCode where
  | illegalOperation
  | invalidKind
  | unmappedAddress
  | readOnlyWrite
  | reentrantService
  | invalidBankCount
  | invalidName
  | addressOutOfWindow
deriving DecidableEq, Repr

/-- The code's number in R330's table. -/
def FaultCode.number : FaultCode → Nat
  | .illegalOperation => 1
  | .invalidKind => 2
  | .unmappedAddress => 3
  | .readOnlyWrite => 4
  | .reentrantService => 5
  | .invalidBankCount => 6
  | .invalidName => 7
  | .addressOutOfWindow => 8

/-- The reasons of an operational failure (R12, R332). -/
inductive FailReason where
  | bankUnmapped
  | bankOutOfRange
  | duplicateName
  | noSpace
  | allocFail
  | fileError
deriving DecidableEq, Repr

/-- The results of `serviceOne` (R12, R126). -/
inductive ServiceResult where
  | NONE
  | HANDLED_OK
  | HANDLED_FAIL
deriving DecidableEq, Repr

/-- The responses of R12. -/
inductive Response where
  | byte (v : Byte)
  | ok
  | fail (r : FailReason)
  | handle (h : Handle)
  | absent
  | service (r : ServiceResult)
  | pending
  | faulted (code : FaultCode)
deriving DecidableEq, Repr

/-- The service phase (R28). -/
inductive Svc where
  | idle
  | inHandler (k : Kind)
deriving DecidableEq, Repr

/-- Where a byte of a bank that no LOAD has written comes from: the bank was made at creation (`BANK_INIT_CONTENT`, R40)
or added by SETBANKCOUNT with the draw of that number (`newBank`, R260) (log 3). -/
inductive Origin where
  | created
  | added (draw : Nat)
deriving DecidableEq, Repr

/-- The loaded bytes of the bank array, keyed by bank * 16384 + offset, keys strictly rising. A byte that is not listed
has been given no value by a load (log 3). -/
abbrev Memory := List Host.Cell

/-- The handle table (R43), names strictly rising (log 11). -/
abbrev HandleTable := List (Name × Handle)

/-- The reasons for which a step stops the model. -/
inductive Fault where
  /-- Raised by `step` alone, when no transaction is pending: the block never steps on its own (R20), so the run is at its
  end (R387). Safe: the model stops where the block waits (log 7). -/
  | noTransaction
deriving DecidableEq, Repr

/-- The reasons for which an instruction has no meaning. -/
inductive Refusal where
  /-- Raised by an arm of `exec` whose instruction has no meaning yet. Safe. No arm raises it now. -/
  | notModelled (mnemonic : String)
deriving DecidableEq, Repr

/-- The state record of R46, and after it the model's own fields (INVENTORY.md, State). -/
structure State where
  -- Interrupt Controller (R24-R28)
  IF : Byte
  IE : Byte
  IME : Bool
  handlers : List Bool
  svc : Svc
  -- Timer (R29-R33)
  divider : BitVec 16
  oldDivider : BitVec 16
  counter : Byte
  modulo : Byte
  clockSpeed : BitVec 2
  enabled : Bool
  -- Joypad (R35, R36)
  selectButtons : Bool
  selectDPad : Bool
  buttons : BitVec 4
  dPad : BitVec 4
  -- Real-Time Clock (R38)
  seconds : Byte
  minutes : Byte
  hours : Byte
  dayLow : Byte
  dayHigh : Byte
  -- Banked Data Store (R40-R43)
  bankCount : Nat
  banks : Memory
  fill : List Nat
  currentBank : BitVec 16
  handles : HandleTable
  -- Fault state (R45)
  fault : Option FaultCode
  -- The model's own fields
  cfg : Config
  origins : List Origin
  draws : Nat
  pending : List Transaction
  answers : HostAnswers
  response : Option Response
deriving DecidableEq, Repr

/-- The launch state of R370 for a configuration, the wall-clock sample taken at creation (R232) and any value of
`oldDivider` (R30). -/
def State.launch (c : Config) (wall : WallTime) (oldDivider : BitVec 16) : State where
  IF := c.ifReset
  IE := 0x00#8
  IME := false
  handlers := List.replicate c.intKindCount false
  svc := .idle
  divider := c.divReset
  oldDivider := oldDivider
  counter := c.timaReset
  modulo := c.tmaReset
  clockSpeed := c.tacSpeedReset
  enabled := c.tacEnabledReset
  selectButtons := c.joypSelButtonsReset
  selectDPad := c.joypSelDPadReset
  buttons := 0xF#4
  dPad := 0xF#4
  seconds := (c.rtcDerive.derive wall).seconds
  minutes := (c.rtcDerive.derive wall).minutes
  hours := (c.rtcDerive.derive wall).hours
  dayLow := (c.rtcDerive.derive wall).dayLow
  dayHigh := (c.rtcDerive.derive wall).dayHigh
  bankCount := c.defaultBankCount
  banks := []
  fill := List.replicate c.defaultBankCount 0
  currentBank := 0#16
  handles := []
  fault := none
  cfg := c
  origins := List.replicate c.defaultBankCount .created
  draws := 0
  pending := []
  answers := HostAnswers.sample
  response := none

/-- The machine right after reset: the launch state under instantiation T (log 1), with the wall clock at 00:00:00 of
day 0 (log 5) and `oldDivider` 0 (log 4); all three DESIGN CHOICE. -/
def State.reset : State := State.launch Config.instT ⟨0, 0, 0, 0⟩ 0x0000#16

end Sys2Proof.Machine
end

