-- ==== Sys2Proof/Machine/Flags.lean ====
section
/-! DEFINITION. The IF bits, the block's only status flags (10_state.md R48): setting and clearing one, eligibility and
priority (40_interrupt_controller.md R120), and the falling edge that clocks the Timer (41_timer.md R160). -/

namespace Sys2Proof.Machine

/-- `v` with bit `i` made `b`. -/
def setBit {n : Nat} (v : BitVec n) (i : Nat) (b : Bool) : BitVec n :=
  if b then v ||| BitVec.twoPow n i else v &&& ~~~(BitVec.twoPow n i)

/-- The kinds in priority order, ascending (R120). -/
def kindsInOrder : List Kind := [0, 1, 2, 3, 4, 5, 6, 7]

/-- Kind `k` exists, pends and is enabled: the set `E` of R126. With IME true it is eligible (R120). -/
def State.requesting (s : State) (k : Kind) : Bool :=
  decide (k.val < s.cfg.intKindCount) && s.IF.getLsbD k.val && s.IE.getLsbD k.val

/-- Kind `k` is eligible (R120). -/
def State.eligible (s : State) (k : Kind) : Bool := s.IME && s.requesting k

/-- `min E` of R126. -/
def State.lowestRequesting (s : State) : Option Kind := kindsInOrder.find? (fun k => s.requesting k)

/-- The divider bit that each clock speed selects: `SEL` of 41_timer.md, from the table of R34. -/
def timerBit (speed : BitVec 2) : Nat :=
  if speed = 0#2 then 9 else if speed = 1#2 then 3 else if speed = 2#2 then 5 else 7

/-- A falling edge of bit `b` from `old` to `new` (R160). -/
def fallingEdge (old new : BitVec 16) (b : Nat) : Bool := old.getLsbD b && !new.getLsbD b

end Sys2Proof.Machine
end

