-- ==== Sys2Proof/Machine/Ops.lean ====
section
/-! DEFINITION. The shared operations: responding, failing, raising a fault and the prelude that a faulted state takes no
step (60_exceptions.md R331), the interrupt request, entry and return (R134, R339, R340), the bank array and the handle
table. -/

namespace Sys2Proof.Machine

/-! ### Responses, failures and faults -/

/-- `respond r` (00_scope.md R10). -/
def State.respond (s : State) (r : Response) : State := { s with response := some r }

/-- `fail reason` (00_scope.md R10): the response is `Fail(reason)` and the state is otherwise unchanged (R332). -/
def State.fail (s : State) (r : FailReason) : State := s.respond (.fail r)

/-- `raise Fault(code)` (R331): taking a fault sets `fault` and answers `Faulted(code)`. It is applied to the state before
the transaction, so every other effect of the transaction is discarded. No operation clears `fault`. -/
def State.raise (s : State) (code : FaultCode) : State := { s with fault := some code, response := some (.faulted code) }

/-- The prelude of R331: in a faulted state the transaction answers `Faulted(code)` and changes nothing (log 10);
otherwise `body` is the transaction. -/
def transact (s : State) (body : State → State) : Host.Outcome State Fault Refusal :=
  match s.fault with
  | some code => .next (s.respond (.faulted code))
  | none => .next (body s)

/-- An operation on a kind: a kind at or above N faults `InvalidKind` (30_encoding.md R98). -/
def withKind (k : Kind) (s : State) (body : State → State) : State :=
  if s.cfg.intKindCount ≤ k.val then s.raise .invalidKind else body s

/-! ### Interrupts -/

/-- `requestInterrupt(k)` for a kind below N (R121, R134). -/
def State.requestInterrupt (s : State) (k : Kind) : State := { s with IF := setBit s.IF k.val true }

/-- `cancelInterrupt(k)` for a kind below N (R122). -/
def State.cancelInterrupt (s : State) (k : Kind) : State := { s with IF := setBit s.IF k.val false }

/-- A handler is registered for kind `k` (R27). -/
def State.hasHandler (s : State) (k : Kind) : Bool := s.handlers.getD k.val false

/-- Interrupt entry, the acknowledge step of SERVICE (R126, R339): the kind's IF bit and IME are cleared, and control
goes to the kind's handler if there is one. Nothing else is saved. -/
def State.acknowledge (s : State) (k : Kind) : State :=
  let t := { s with IF := setBit s.IF k.val false, IME := false }
  if s.hasHandler k then { t with svc := .inHandler k, response := some .pending }
  else { t with response := some (.service .NONE) }

/-- The end of a handler (R127, R340). -/
def State.endHandler (s : State) (r : Bool) : State :=
  { s with svc := .idle, response := some (.service (if r then .HANDLED_OK else .HANDLED_FAIL)) }

/-- Return from interrupt (R128, R340): IME becomes true. -/
def State.returnFromInterrupt (s : State) : State := { s with IME := true }

/-! ### The bank array -/

/-- The loaded byte at key `a`, if a load has given it one. -/
def Memory.read (m : Memory) (a : Nat) : Option Byte :=
  match m with
  | [] => none
  | (k, v) :: rest => if k = a then some v else Memory.read rest a

/-- The cells of `bytes` placed at ascending keys from `a` (44_data_store.md R265). -/
def Memory.block (a : Nat) : List Byte → Memory
  | [] => []
  | v :: rest => (a, v) :: Memory.block (a + 1) rest

/-- Store `bytes` at ascending keys from `a` (R265). -/
def Memory.write (m : Memory) (a : Nat) (bytes : List Byte) : Memory :=
  m.filter (fun c => decide (c.1 < a)) ++ Memory.block a bytes ++ m.filter (fun c => decide (a + bytes.length ≤ c.1))

/-- Discard every cell at or above key `a` (R260). -/
def Memory.below (m : Memory) (a : Nat) : Memory := m.filter (fun c => decide (c.1 < a))

/-- The canonical form: keys strictly rising. -/
abbrev Memory.wf (m : Memory) : Prop := m.Pairwise (fun x y => x.1 < y.1)

/-- The key of a byte of a bank. -/
def bankKey (b o : Nat) : Nat := b * bankSize + o

/-- What a byte of bank `b` reads as before any load gives it a value: `BANK_INIT_CONTENT(b, o)` in a bank made at
creation (R40), the `newBank` draw in a bank added by SETBANKCOUNT (R260). -/
def State.unloadedByte (s : State) (b o : Nat) : Byte :=
  match s.origins[b]? with
  | some (.added n) => Config.drawNewBank n b o
  | _ => Config.bankInitContent b o

/-- `banks[b][o]` (10_state.md R40). -/
def State.bankByte (s : State) (b o : Nat) : Byte :=
  match s.banks.read (bankKey b o) with
  | some v => v
  | none => s.unloadedByte b o

/-- `l` cut or extended with `d` to length `n`. -/
def resize {α : Type} (l : List α) (n : Nat) (d : α) : List α := l.take n ++ List.replicate (n - l.length) d

/-! ### The handle table -/

/-- The order of the handle table: lexicographic by character code (log 11). -/
def nameLt : Name → Name → Bool
  | [], [] => false
  | [], _ :: _ => true
  | _ :: _, [] => false
  | a :: as, b :: bs => decide (a.toNat < b.toNat) || (decide (a = b) && nameLt as bs)

/-- `handles[name]` (10_state.md R43). -/
def HandleTable.find (t : HandleTable) (name : Name) : Option Handle :=
  match t with
  | [] => none
  | (n, h) :: rest => if n = name then some h else HandleTable.find rest name

/-- `handles[name] <- h`, in the table's order. -/
def HandleTable.insert (t : HandleTable) (name : Name) (h : Handle) : HandleTable :=
  match t with
  | [] => [(name, h)]
  | (n, x) :: rest =>
    if n = name then (name, h) :: rest
    else if nameLt name n then (name, h) :: (n, x) :: rest
    else (n, x) :: HandleTable.insert rest name h

/-- The canonical form: names strictly rising. -/
abbrev HandleTable.wf (t : HandleTable) : Prop := t.Pairwise (fun x y => nameLt x.1 y.1 = true)

/-! ### Taking a transaction from the caller -/

/-- Accept a transaction: its host answers are the ones its operation asks (00_scope.md R10), and it has a draw number of
its own (R11). -/
def State.accept (s : State) (tx : Transaction) : State := { s with answers := tx.answers, draws := s.draws + 1 }

end Sys2Proof.Machine
end

