-- ==== Sys2Proof/Machine/Operands.lean ====
section
/-! DEFINITION. The operand forms: the Joypad button (42_joypad.md R200, R201), the window address (20_memory.md R63), the
name and the target bank of a load (44_data_store.md R262, R264). -/

namespace Sys2Proof.Machine

/-- `field(g)` (R200). -/
def State.groupField (s : State) : Group → BitVec 4
  | .buttons => s.buttons
  | .dPad => s.dPad

/-- `field(g) <- v` (R200). -/
def State.setGroupField (s : State) (g : Group) (v : BitVec 4) : State :=
  match g with
  | .buttons => { s with buttons := v }
  | .dPad => { s with dPad := v }

/-- `selected(g)` (R201). -/
def State.selected (s : State) : Group → Bool
  | .buttons => s.selectButtons
  | .dPad => s.selectDPad

/-- `translate(a)` for a window address (R63): the bank and the offset, or `none` for `BankUnmapped`. -/
def State.translate (s : State) (a : Addr) : Option (Nat × Nat) :=
  if a.toNat < 0x4000 then some (0, a.toNat)
  else if s.currentBank.toNat < s.bankCount then some (s.currentBank.toNat, a.toNat - 0x4000)
  else none

/-- The answer of a window read: the byte, or `Fail(BankUnmapped)` (R275, R279). -/
def State.readWindow (s : State) (a : Addr) : State :=
  match s.translate a with
  | some (b, o) => s.respond (.byte (s.bankByte b o))
  | none => s.fail .bankUnmapped

/-- A valid name has 1 to 32 characters (R262). -/
def validName (name : Name) : Bool := decide (1 ≤ name.length) && decide (name.length ≤ 32)

/-- The target bank `tb` of a load (R265). -/
def State.loadBank (s : State) (intoBank0 : Bool) : BitVec 16 := if intoBank0 then 0#16 else s.currentBank

/-- `fill[b]` (10_state.md R41). -/
def State.fillOf (s : State) (b : Nat) : Nat := s.fill.getD b 0

/-- `loadData` once every check has passed (R265). -/
def State.placeData (s : State) (tb : BitVec 16) (name : Name) (bytes : List Byte) : State :=
  let o := s.fillOf tb.toNat
  let h : Handle := ⟨bytes.length, o, tb⟩
  { s with
    banks := s.banks.write (bankKey tb.toNat o) bytes
    fill := s.fill.set tb.toNat (o + bytes.length)
    handles := s.handles.insert name h
    response := some (.handle h) }

/-- `loadData` (R265) with the checks of R264 in their order. -/
def State.loadData (s : State) (intoBank0 : Bool) (name : Name) (bytes : List Byte) : State :=
  let tb := s.loadBank intoBank0
  if !validName name then s.raise .invalidName
  else if (s.handles.find name).isSome then s.fail .duplicateName
  else if s.bankCount ≤ tb.toNat then s.fail .bankOutOfRange
  else if bankSize < s.fillOf tb.toNat + bytes.length then s.fail .noSpace
  else if !s.answers.alloc then s.fail .allocFail
  else s.placeData tb name bytes

end Sys2Proof.Machine
end

