-- ==== Sys2Proof/Machine/Bus.lean ====
section
/-! DEFINITION. The Register Bus (45_register_bus.md): accesses to an address that names nothing. Routing to a target is
the decoder's (`decodeRead`, `decodeWrite`). -/

namespace Sys2Proof.Machine

/-- RD UNMAPPED (R312). -/
def execRdUnmapped (_a : Addr) (s : State) : Host.Outcome State Fault Refusal :=
  transact s fun s => s.raise .unmappedAddress

/-- WR UNMAPPED (R313). -/
def execWrUnmapped (_a : Addr) (_v : Byte) (s : State) : Host.Outcome State Fault Refusal :=
  transact s fun s => s.raise .unmappedAddress

end Sys2Proof.Machine
end

