-- ==== Sys2Proof/Machine/Interrupt.lean ====
section
/-! DEFINITION. The Interrupt Controller (40_interrupt_controller.md). -/

namespace Sys2Proof.Machine

/-- REQ (R121). -/
def execReq (k : Kind) (s : State) : Host.Outcome State Fault Refusal :=
  transact s fun s => withKind k s fun s => (s.requestInterrupt k).respond .ok

/-- CANCEL (R122). -/
def execCancel (k : Kind) (s : State) : Host.Outcome State Fault Refusal :=
  transact s fun s => withKind k s fun s => (s.cancelInterrupt k).respond .ok

/-- SETIE (R123). -/
def execSetie (k : Kind) (f : Bool) (s : State) : Host.Outcome State Fault Refusal :=
  transact s fun s => withKind k s fun s => { s with IE := setBit s.IE k.val f, response := some .ok }

/-- SETIME (R124). -/
def execSetime (f : Bool) (s : State) : Host.Outcome State Fault Refusal :=
  transact s fun s => { s with IME := f, response := some .ok }

/-- SETHANDLER (R125). -/
def execSethandler (k : Kind) (p : Bool) (s : State) : Host.Outcome State Fault Refusal :=
  transact s fun s => withKind k s fun s => { s with handlers := s.handlers.set k.val p, response := some .ok }

/-- SERVICE (R126). -/
def execService (s : State) : Host.Outcome State Fault Refusal :=
  transact s fun s =>
    if s.svc ≠ .idle then s.raise .reentrantService
    else if !s.IME then s.respond (.service .NONE)
    else
      match s.lowestRequesting with
      | none => s.respond (.service .NONE)
      | some k => s.acknowledge k

/-- HRET (R127). -/
def execHret (r : Bool) (s : State) : Host.Outcome State Fault Refusal :=
  transact s fun s => if s.svc = .idle then s.raise .illegalOperation else s.endHandler r

/-- RETI (R128). -/
def execReti (s : State) : Host.Outcome State Fault Refusal :=
  transact s fun s => s.returnFromInterrupt.respond .ok

/-- RD IF (R130). -/
def execRdIf (s : State) : Host.Outcome State Fault Refusal :=
  transact s fun s => s.respond (.byte s.IF)

/-- WR IF (R131). -/
def execWrIf (v : Byte) (s : State) : Host.Outcome State Fault Refusal :=
  transact s fun s => { s with IF := v, response := some .ok }

/-- RD IE (R132). -/
def execRdIe (s : State) : Host.Outcome State Fault Refusal :=
  transact s fun s => s.respond (.byte s.IE)

/-- WR IE (R133). -/
def execWrIe (v : Byte) (s : State) : Host.Outcome State Fault Refusal :=
  transact s fun s => { s with IE := v, response := some .ok }

end Sys2Proof.Machine
end

