-- ==== Sys2Proof/Machine/Joypad.lean ====
section
/-! DEFINITION. The Joypad (42_joypad.md). -/

namespace Sys2Proof.Machine

/-- `press(button)` (R202): a 1 to 0 transition in a selected group requests the Joypad interrupt. -/
def State.pressButton (s : State) (g : Group) (l : Line) : State :=
  if (s.groupField g).getLsbD l.val then
    let t := s.setGroupField g (setBit (s.groupField g) l.val false)
    if s.selected g then t.requestInterrupt s.cfg.kindJoypad else t
  else s

/-- PRESS (R202). -/
def execPress (g : Group) (l : Line) (s : State) : Host.Outcome State Fault Refusal :=
  transact s fun s => (s.pressButton g l).respond .ok

/-- RELEASE (R203). -/
def execRelease (g : Group) (l : Line) (s : State) : Host.Outcome State Fault Refusal :=
  transact s fun s => (s.setGroupField g (setBit (s.groupField g) l.val true)).respond .ok

/-- The low nibble of a JOYP read (R204): the buttons take priority, and with neither group selected it is a draw. -/
def State.joypNibble (s : State) : BitVec 4 :=
  if s.selectButtons then s.buttons else if s.selectDPad then s.dPad else Config.drawJoypNone s.draws

/-- The byte a JOYP read returns (R204, 10_state.md R37). -/
def State.joypByte (s : State) : Byte :=
  Config.drawJoypHigh s.draws ++ BitVec.ofBool (!s.selectButtons) ++ BitVec.ofBool (!s.selectDPad) ++ s.joypNibble

/-- RD JOYP (R204). -/
def execRdJoyp (s : State) : Host.Outcome State Fault Refusal :=
  transact s fun s => s.respond (.byte s.joypByte)

/-- WR JOYP (R205): only bits 5 and 4 are stored. -/
def execWrJoyp (v : Byte) (s : State) : Host.Outcome State Fault Refusal :=
  transact s fun s => { s with selectButtons := !v.getLsbD 5, selectDPad := !v.getLsbD 4, response := some .ok }

end Sys2Proof.Machine
end

