-- ==== Sys2Proof/Machine/Rtc.lean ====
section
/-! DEFINITION. The Real-Time Clock latch (43_rtc.md). -/

namespace Sys2Proof.Machine

/-- The five fields as a record (10_state.md R38). -/
def State.rtcFields (s : State) : RtcFields := ⟨s.seconds, s.minutes, s.hours, s.dayLow, s.dayHigh⟩

/-- Replace the five fields (R230). -/
def State.setRtcFields (s : State) (f : RtcFields) : State :=
  { s with seconds := f.seconds, minutes := f.minutes, hours := f.hours, dayLow := f.dayLow, dayHigh := f.dayHigh }

/-- `latch()` (R230): sample the host's wall clock, replace the fields, and request the RTC interrupt iff one changed. -/
def State.latchRtc (s : State) : State :=
  let f := s.cfg.rtcDerive.derive s.answers.wall
  let t := s.setRtcFields f
  if f ≠ s.rtcFields then t.requestInterrupt s.cfg.kindRtc else t

/-- LATCH (R230). -/
def execLatch (s : State) : Host.Outcome State Fault Refusal :=
  transact s fun s => s.latchRtc.respond .ok

/-- RD RTC_S (R233). -/
def execRdRtcS (s : State) : Host.Outcome State Fault Refusal :=
  transact s fun s => s.respond (.byte s.seconds)

/-- RD RTC_M (R234). -/
def execRdRtcM (s : State) : Host.Outcome State Fault Refusal :=
  transact s fun s => s.respond (.byte s.minutes)

/-- RD RTC_H (R235). -/
def execRdRtcH (s : State) : Host.Outcome State Fault Refusal :=
  transact s fun s => s.respond (.byte s.hours)

/-- RD RTC_DL (R236). -/
def execRdRtcDl (s : State) : Host.Outcome State Fault Refusal :=
  transact s fun s => s.respond (.byte s.dayLow)

/-- RD RTC_DH (R237). -/
def execRdRtcDh (s : State) : Host.Outcome State Fault Refusal :=
  transact s fun s => s.respond (.byte s.dayHigh)

/-- WR RTC_LATCH (R238): any value latches. -/
def execWrRtcLatch (_v : Byte) (s : State) : Host.Outcome State Fault Refusal :=
  transact s fun s => s.latchRtc.respond .ok

/-- RD RTC_LATCH (R240): a draw; the read does not latch. -/
def execRdRtcLatch (s : State) : Host.Outcome State Fault Refusal :=
  transact s fun s => s.respond (.byte (Config.drawLatchRead s.draws))

/-- WR RTC_S (R239): the register is read-only. -/
def execWrRtcS (_v : Byte) (s : State) : Host.Outcome State Fault Refusal :=
  transact s fun s => s.raise .readOnlyWrite

/-- WR RTC_M (R241): the register is read-only. -/
def execWrRtcM (_v : Byte) (s : State) : Host.Outcome State Fault Refusal :=
  transact s fun s => s.raise .readOnlyWrite

/-- WR RTC_H (R242): the register is read-only. -/
def execWrRtcH (_v : Byte) (s : State) : Host.Outcome State Fault Refusal :=
  transact s fun s => s.raise .readOnlyWrite

/-- WR RTC_DL (R243): the register is read-only. -/
def execWrRtcDl (_v : Byte) (s : State) : Host.Outcome State Fault Refusal :=
  transact s fun s => s.raise .readOnlyWrite

/-- WR RTC_DH (R244): the register is read-only. -/
def execWrRtcDh (_v : Byte) (s : State) : Host.Outcome State Fault Refusal :=
  transact s fun s => s.raise .readOnlyWrite

end Sys2Proof.Machine
end

