-- ==== Sys2Proof/Machine/Store.lean ====
section
/-! DEFINITION. The Banked Data Store (44_data_store.md). -/

namespace Sys2Proof.Machine

/-- The bank array resized to `n` banks (R260): kept banks keep bytes and fill, added banks take the `newBank` draw and
fill 0, discarded banks lose both. `currentBank` and the handles are unchanged. -/
def State.resizeBanks (s : State) (n : Nat) : State :=
  { s with
    bankCount := n
    banks := s.banks.below (n * bankSize)
    fill := resize s.fill n 0
    origins := resize s.origins n (.added s.draws) }

/-- SETBANKCOUNT (R260). -/
def execSetbankcount (n : Nat) (s : State) : Host.Outcome State Fault Refusal :=
  transact s fun s =>
    if n < 1 ∨ 65536 < n then s.raise .invalidBankCount
    else if !s.answers.alloc then s.fail .allocFail
    else (s.resizeBanks n).respond .ok

/-- SETBANK (R261): any value is stored. -/
def execSetbank (n : BitVec 16) (s : State) : Host.Outcome State Fault Refusal :=
  transact s fun s => { s with currentBank := n, response := some .ok }

/-- LOAD (R264, R265). -/
def execLoad (f : Bool) (name : Name) (bytes : List Byte) (s : State) : Host.Outcome State Fault Refusal :=
  transact s fun s => s.loadData f name bytes

/-- LOADFILE (R266): the file is read before the name is checked. The path is the host's; its answer is in
`answers.file`. -/
def execLoadfile (f : Bool) (name : Name) (_path : Name) (s : State) : Host.Outcome State Fault Refusal :=
  transact s fun s =>
    match s.answers.file with
    | none => s.fail .fileError
    | some bytes => s.loadData f name bytes

/-- GOTO (R267): only the record's bank is read. -/
def execGotoHandle (h : Handle) (s : State) : Host.Outcome State Fault Refusal :=
  transact s fun s =>
    if s.bankCount ≤ h.bank.toNat then s.fail .bankOutOfRange
    else { s with currentBank := h.bank, response := some .ok }

/-- LOOKUP (R268). -/
def execLookup (name : Name) (s : State) : Host.Outcome State Fault Refusal :=
  transact s fun s =>
    match s.handles.find name with
    | some h => s.respond (.handle h)
    | none => s.respond .absent

/-- READBYTE (R275). -/
def execReadbyte (a : Addr) (s : State) : Host.Outcome State Fault Refusal :=
  transact s fun s => if 0x8000 ≤ a.toNat then s.raise .addressOutOfWindow else s.readWindow a

/-- RD ROM0 (R276): bank 0 at offset `a`. -/
def execRdRom0 (a : BitVec 14) (s : State) : Host.Outcome State Fault Refusal :=
  transact s fun s => s.respond (.byte (s.bankByte 0 a.toNat))

/-- WR ROM0 (R277): the window is read-only. -/
def execWrRom0 (_a : BitVec 14) (_v : Byte) (s : State) : Host.Outcome State Fault Refusal :=
  transact s fun s => s.raise .readOnlyWrite

/-- RD ROMX (R279): the selected bank at offset `a`, or `Fail(BankUnmapped)`. -/
def execRdRomx (a : BitVec 14) (s : State) : Host.Outcome State Fault Refusal :=
  transact s fun s =>
    if s.bankCount ≤ s.currentBank.toNat then s.fail .bankUnmapped
    else s.respond (.byte (s.bankByte s.currentBank.toNat a.toNat))

/-- WR ROMX (R278): the window is read-only. -/
def execWrRomx (_a : BitVec 14) (_v : Byte) (s : State) : Host.Outcome State Fault Refusal :=
  transact s fun s => s.raise .readOnlyWrite

/-- WR BANK_HI (R280): bits 15:8 of `currentBank`. -/
def execWrBankHi (v : Byte) (s : State) : Host.Outcome State Fault Refusal :=
  transact s fun s => { s with currentBank := v ++ s.currentBank.extractLsb' 0 8, response := some .ok }

/-- WR BANK_LO (R281): bits 7:0 of `currentBank`. -/
def execWrBankLo (v : Byte) (s : State) : Host.Outcome State Fault Refusal :=
  transact s fun s => { s with currentBank := s.currentBank.extractLsb' 8 8 ++ v, response := some .ok }

/-- RD BANK_HI (R282): a draw. -/
def execRdBankHi (s : State) : Host.Outcome State Fault Refusal :=
  transact s fun s => s.respond (.byte (Config.drawBankHiRead s.draws))

/-- RD BANK_LO (R283): a draw. -/
def execRdBankLo (s : State) : Host.Outcome State Fault Refusal :=
  transact s fun s => s.respond (.byte (Config.drawBankLoRead s.draws))

end Sys2Proof.Machine
end

