-- ==== Sys2Proof/Machine/Timer.lean ====
section
/-! DEFINITION. The Timer (41_timer.md). -/

namespace Sys2Proof.Machine

/-- One clock of the counter (R160): at 0xFF it reloads from the modulo and requests the Timer interrupt in the same step. -/
def State.clockCounter (s : State) : State :=
  if s.counter = 0xFF#8 then { s with counter := s.modulo }.requestInterrupt s.cfg.kindTimer
  else { s with counter := s.counter + 1#8 }

/-- `tick()` (R160). -/
def State.tickTimer (s : State) : State :=
  let t := { s with oldDivider := s.divider, divider := s.divider + 1#16 }
  if t.enabled && fallingEdge t.oldDivider t.divider (timerBit t.clockSpeed) then t.clockCounter else t

/-- TICK (R160): the tick reaches the Timer only (45_register_bus.md R314). -/
def execTick (s : State) : Host.Outcome State Fault Refusal :=
  transact s fun s => s.tickTimer.respond .ok

/-- RD DIV (R161): the divider's upper 8 bits. -/
def execRdDiv (s : State) : Host.Outcome State Fault Refusal :=
  transact s fun s => s.respond (.byte (s.divider.extractLsb' 8 8))

/-- WR DIV (R162): any value clears the whole divider. -/
def execWrDiv (_v : Byte) (s : State) : Host.Outcome State Fault Refusal :=
  transact s fun s => { s with divider := 0x0000#16, response := some .ok }

/-- RD TIMA (R163). -/
def execRdTima (s : State) : Host.Outcome State Fault Refusal :=
  transact s fun s => s.respond (.byte s.counter)

/-- WR TIMA (R164). -/
def execWrTima (v : Byte) (s : State) : Host.Outcome State Fault Refusal :=
  transact s fun s => { s with counter := v, response := some .ok }

/-- RD TMA (R165). -/
def execRdTma (s : State) : Host.Outcome State Fault Refusal :=
  transact s fun s => s.respond (.byte s.modulo)

/-- WR TMA (R166). -/
def execWrTma (v : Byte) (s : State) : Host.Outcome State Fault Refusal :=
  transact s fun s => { s with modulo := v, response := some .ok }

/-- The byte a TAC read returns (R167): bits 7:3 a draw, bit 2 `enabled`, bits 1:0 `clockSpeed`. -/
def State.tacByte (s : State) : Byte := Config.drawTacHigh s.draws ++ BitVec.ofBool s.enabled ++ s.clockSpeed

/-- RD TAC (R167). -/
def execRdTac (s : State) : Host.Outcome State Fault Refusal :=
  transact s fun s => s.respond (.byte s.tacByte)

/-- WR TAC (R168): bits 7:3 are ignored. -/
def execWrTac (v : Byte) (s : State) : Host.Outcome State Fault Refusal :=
  transact s fun s => { s with clockSpeed := v.extractLsb' 0 2, enabled := v.getLsbD 2, response := some .ok }

end Sys2Proof.Machine
end

