-- ==== Sys2Proof/Machine/Dispatch.lean ====
section
/-! DEFINITION. The meaning of each instruction, one arm for each constructor of `Instr`. -/

namespace Sys2Proof.Machine

def exec (i : Instr) (s : State) : Host.Outcome State Fault Refusal :=
  match i with
  | .tick => Sys2Proof.Machine.execTick s
  | .req k => Sys2Proof.Machine.execReq k s
  | .cancel k => Sys2Proof.Machine.execCancel k s
  | .setie k f => Sys2Proof.Machine.execSetie k f s
  | .setime f => Sys2Proof.Machine.execSetime f s
  | .service => Sys2Proof.Machine.execService s
  | .reti => Sys2Proof.Machine.execReti s
  | .sethandler k p => Sys2Proof.Machine.execSethandler k p s
  | .hret r => Sys2Proof.Machine.execHret r s
  | .press g l => Sys2Proof.Machine.execPress g l s
  | .release g l => Sys2Proof.Machine.execRelease g l s
  | .latch => Sys2Proof.Machine.execLatch s
  | .setbankcount n => Sys2Proof.Machine.execSetbankcount n s
  | .setbank n => Sys2Proof.Machine.execSetbank n s
  | .load f name bytes => Sys2Proof.Machine.execLoad f name bytes s
  | .loadfile f name path => Sys2Proof.Machine.execLoadfile f name path s
  | .gotoHandle h => Sys2Proof.Machine.execGotoHandle h s
  | .readbyte a => Sys2Proof.Machine.execReadbyte a s
  | .lookup name => Sys2Proof.Machine.execLookup name s
  | .rdRom0 a => Sys2Proof.Machine.execRdRom0 a s
  | .wrRom0 a v => Sys2Proof.Machine.execWrRom0 a v s
  | .rdRomx a => Sys2Proof.Machine.execRdRomx a s
  | .wrRomx a v => Sys2Proof.Machine.execWrRomx a v s
  | .rdIf => Sys2Proof.Machine.execRdIf s
  | .wrIf v => Sys2Proof.Machine.execWrIf v s
  | .rdIe => Sys2Proof.Machine.execRdIe s
  | .wrIe v => Sys2Proof.Machine.execWrIe v s
  | .rdDiv => Sys2Proof.Machine.execRdDiv s
  | .wrDiv v => Sys2Proof.Machine.execWrDiv v s
  | .rdTima => Sys2Proof.Machine.execRdTima s
  | .wrTima v => Sys2Proof.Machine.execWrTima v s
  | .rdTma => Sys2Proof.Machine.execRdTma s
  | .wrTma v => Sys2Proof.Machine.execWrTma v s
  | .rdTac => Sys2Proof.Machine.execRdTac s
  | .wrTac v => Sys2Proof.Machine.execWrTac v s
  | .rdJoyp => Sys2Proof.Machine.execRdJoyp s
  | .wrJoyp v => Sys2Proof.Machine.execWrJoyp v s
  | .rdRtcS => Sys2Proof.Machine.execRdRtcS s
  | .wrRtcS v => Sys2Proof.Machine.execWrRtcS v s
  | .rdRtcM => Sys2Proof.Machine.execRdRtcM s
  | .wrRtcM v => Sys2Proof.Machine.execWrRtcM v s
  | .rdRtcH => Sys2Proof.Machine.execRdRtcH s
  | .wrRtcH v => Sys2Proof.Machine.execWrRtcH v s
  | .rdRtcDl => Sys2Proof.Machine.execRdRtcDl s
  | .wrRtcDl v => Sys2Proof.Machine.execWrRtcDl v s
  | .rdRtcDh => Sys2Proof.Machine.execRdRtcDh s
  | .wrRtcDh v => Sys2Proof.Machine.execWrRtcDh v s
  | .rdRtcLatch => Sys2Proof.Machine.execRdRtcLatch s
  | .wrRtcLatch v => Sys2Proof.Machine.execWrRtcLatch v s
  | .rdBankHi => Sys2Proof.Machine.execRdBankHi s
  | .wrBankHi v => Sys2Proof.Machine.execWrBankHi v s
  | .rdBankLo => Sys2Proof.Machine.execRdBankLo s
  | .wrBankLo v => Sys2Proof.Machine.execWrBankLo v s
  | .rdUnmapped a => Sys2Proof.Machine.execRdUnmapped a s
  | .wrUnmapped a v => Sys2Proof.Machine.execWrUnmapped a v s

end Sys2Proof.Machine
end

