-- ==== Sys2Proof/Machine/Step.lean ====
section
/-! DEFINITION. One step: the next transaction of the driving caller (10_state.md R20). -/

namespace Sys2Proof.Machine

/-- One transaction (R6, R67): accept it, decode its word under the instance's configuration and perform it. In a faulted
state it answers `Faulted(code)` first of all; a word that names no operation raises `IllegalOperation` (R97, R331, R338). -/
def perform (tx : Transaction) (s : State) : Host.Outcome State Fault Refusal :=
  match decode s.cfg tx.word tx.payload with
  | .ok i => exec i (s.accept tx)
  | .error _ => transact (s.accept tx) (fun t => t.raise .illegalOperation)

/-- One step of the block: the first pending transaction is performed. With none pending the block does not step (log 7). -/
def step (s : State) : Host.Outcome State Fault Refusal :=
  match s.pending with
  | [] => .fault .noTransaction
  | tx :: rest => perform tx { s with pending := rest }

/-- The state with the word `w` as the next transaction, carrying the sample payload and the sample host answers (log 7,
log 13). Nothing else changes. -/
def State.withFetchWord (s : State) (nbits w : Nat) : State :=
  { s with pending := ⟨BitVec.ofNat 32 (w % 2 ^ nbits), Payload.sample, HostAnswers.sample⟩ :: s.pending }

end Sys2Proof.Machine
end

