-- ==== Sys2Proof/Safety.lean ====
section
/-! DEFINITION. The terms in which claims are stated: runs and their observation (70_reset_and_hazards.md R387), the named
premise on allocation (44_data_store.md R263), and the invariant of the state. -/

namespace Sys2Proof.Machine

/-- The transactions of a run performed one after another (R70, R387). -/
def performAll : List Transaction → State → Host.Outcome State Fault Refusal
  | [], s => .next s
  | tx :: rest, s =>
    match perform tx s with
    | .next t => performAll rest t
    | .fault r => .fault r
    | .refused r => .refused r

/-- The observation of a run, less its final state: the response of each transaction in order (R387). -/
def responses : List Transaction → State → List (Option Response)
  | [], _ => []
  | tx :: rest, s =>
    match perform tx s with
    | .next t => t.response :: responses rest t
    | .fault _ => []
    | .refused _ => []

/-- A run ends well when no transaction faulted: `fault = None` and no response was `Faulted` (R387). -/
def EndsWell (txs : List Transaction) (s : State) : Prop :=
  (∃ t, performAll txs s = .next t ∧ t.fault = none) ∧ ∀ code, some (Response.faulted code) ∉ responses txs s

/-- The launch premise `ALLOC_NEVER_FAILS` (R263): every allocation answer of the run is true. -/
def AllocNeverFails (txs : List Transaction) : Prop := ∀ tx ∈ txs, tx.answers.alloc = true

/-- Every transaction of the list is the TICK word (R94). -/
def AllTicks (txs : List Transaction) : Prop := ∀ tx ∈ txs, tx.word = 0x03000000#32

/-- The number of the word whose fields are OP, A and D (30_encoding.md R90). -/
def wordOf (op a d : Nat) : Nat := op * 2 ^ 24 + a * 2 ^ 8 + d

/-- Clock speed and the divider bit it selects, the table of 10_state.md R34. -/
def SpeedSelects (speed : BitVec 2) (b : Nat) : Prop :=
  (speed = 0#2 ∧ b = 9) ∨ (speed = 1#2 ∧ b = 3) ∨ (speed = 2#2 ∧ b = 5) ∨ (speed = 3#2 ∧ b = 7)

/-- What every reachable state meets. The bounds are those of R46's record; the two clauses on loaded bytes say that a
bank's loaded bytes are exactly those below its fill position (10_state.md R41). -/
structure State.Inv (s : State) : Prop where
  config : s.cfg.Valid
  handlerTable : s.handlers.length = s.cfg.intKindCount
  phase : ∀ k, s.svc = .inHandler k → k.val < s.cfg.intKindCount
  bankRange : 1 ≤ s.bankCount ∧ s.bankCount ≤ 65536
  fillTable : s.fill.length = s.bankCount
  originTable : s.origins.length = s.bankCount
  fillRange : ∀ x ∈ s.fill, x ≤ bankSize
  banksCanonical : Memory.wf s.banks
  loadedBelowFill : ∀ c ∈ s.banks, c.1 / bankSize < s.bankCount ∧ c.1 % bankSize < s.fillOf (c.1 / bankSize)
  fillLoaded : ∀ b o, b < s.bankCount → o < s.fillOf b → (s.banks.read (bankKey b o)).isSome = true
  handlesCanonical : HandleTable.wf s.handles
  handleWidths : ∀ e ∈ s.handles, validName e.1 = true ∧ e.2.length + e.2.address ≤ bankSize

end Sys2Proof.Machine
end

