-- ==== Sys2Proof/Certificates/Slice0/Obligations.lean ====
section
/-! DEFINITION. The statements for the provers. Each formalises a numbered rule of spec/, named in its docstring. -/

open Sys2Proof Sys2Proof.Machine

/-! ### Encoding -/

/-- R90, R91, R93-R95: the word of every transaction, field by field. OP is the row's, A the address or the 16-bit operand,
and D the data byte, the kind, the flag (bit 7 in format KF, bit 0 in F and FP) or the button (group in bit 2, line in bits
1:0); every field a format leaves out is 0. -/
def Obligations.EncodedWordsHoldTheirFields : Prop :=
  ∀ (c : Config) (k : Kind) (f : Bool) (g : Group) (l : Line) (n : Nat) (b : BitVec 16) (a : Addr) (o : BitVec 14) (v : Byte)
    (name path : Name) (bytes : List Byte) (h : Handle) (word : Instr → Nat) (flag group : Nat), 1 ≤ n → n ≤ 65536 →
    (∀ i, word i = (encode c i).toNat) → flag = (if f then 1 else 0) → group = (if g = .dPad then 1 else 0) →
    word .tick = wordOf 0x03 0 0 ∧ word (.req k) = wordOf 0x10 0 k.val ∧ word (.cancel k) = wordOf 0x11 0 k.val ∧
    word (.setie k f) = wordOf 0x12 0 (flag * 128 + k.val) ∧ word (.setime f) = wordOf 0x13 0 flag ∧
    word .service = wordOf 0x14 0 0 ∧ word .reti = wordOf 0x15 0 0 ∧
    word (.sethandler k f) = wordOf 0x16 0 (flag * 128 + k.val) ∧ word (.hret f) = wordOf 0x17 0 flag ∧
    word (.press g l) = wordOf 0x20 0 (group * 4 + l.val) ∧ word (.release g l) = wordOf 0x21 0 (group * 4 + l.val) ∧
    word .latch = wordOf 0x30 0 0 ∧ word (.setbankcount n) = wordOf 0x40 (n - 1) 0 ∧
    word (.setbank b) = wordOf 0x41 b.toNat 0 ∧ word (.load f name bytes) = wordOf 0x42 0 flag ∧
    word (.loadfile f name path) = wordOf 0x43 0 flag ∧ word (.gotoHandle h) = wordOf 0x44 0 0 ∧
    word (.readbyte a) = wordOf 0x45 a.toNat 0 ∧ word (.lookup name) = wordOf 0x46 0 0 ∧
    word (.rdRom0 o) = wordOf 0x01 o.toNat 0 ∧ word (.wrRom0 o v) = wordOf 0x02 o.toNat v.toNat ∧
    word (.rdRomx o) = wordOf 0x01 (0x4000 + o.toNat) 0 ∧ word (.wrRomx o v) = wordOf 0x02 (0x4000 + o.toNat) v.toNat ∧
    word (.rdUnmapped a) = wordOf 0x01 a.toNat 0 ∧ word (.wrUnmapped a v) = wordOf 0x02 a.toNat v.toNat ∧
    word .rdIf = wordOf 0x01 c.addrIf.toNat 0 ∧ word (.wrIf v) = wordOf 0x02 c.addrIf.toNat v.toNat ∧
    word .rdIe = wordOf 0x01 c.addrIe.toNat 0 ∧ word (.wrIe v) = wordOf 0x02 c.addrIe.toNat v.toNat ∧
    word .rdDiv = wordOf 0x01 c.addrDiv.toNat 0 ∧ word (.wrDiv v) = wordOf 0x02 c.addrDiv.toNat v.toNat ∧
    word .rdTima = wordOf 0x01 c.addrTima.toNat 0 ∧ word (.wrTima v) = wordOf 0x02 c.addrTima.toNat v.toNat ∧
    word .rdTma = wordOf 0x01 c.addrTma.toNat 0 ∧ word (.wrTma v) = wordOf 0x02 c.addrTma.toNat v.toNat ∧
    word .rdTac = wordOf 0x01 c.addrTac.toNat 0 ∧ word (.wrTac v) = wordOf 0x02 c.addrTac.toNat v.toNat ∧
    word .rdJoyp = wordOf 0x01 c.addrJoyp.toNat 0 ∧ word (.wrJoyp v) = wordOf 0x02 c.addrJoyp.toNat v.toNat ∧
    word .rdRtcS = wordOf 0x01 c.addrRtcS.toNat 0 ∧ word (.wrRtcS v) = wordOf 0x02 c.addrRtcS.toNat v.toNat ∧
    word .rdRtcM = wordOf 0x01 c.addrRtcM.toNat 0 ∧ word (.wrRtcM v) = wordOf 0x02 c.addrRtcM.toNat v.toNat ∧
    word .rdRtcH = wordOf 0x01 c.addrRtcH.toNat 0 ∧ word (.wrRtcH v) = wordOf 0x02 c.addrRtcH.toNat v.toNat ∧
    word .rdRtcDl = wordOf 0x01 c.addrRtcDl.toNat 0 ∧ word (.wrRtcDl v) = wordOf 0x02 c.addrRtcDl.toNat v.toNat ∧
    word .rdRtcDh = wordOf 0x01 c.addrRtcDh.toNat 0 ∧ word (.wrRtcDh v) = wordOf 0x02 c.addrRtcDh.toNat v.toNat ∧
    word .rdRtcLatch = wordOf 0x01 c.addrRtcLatch.toNat 0 ∧ word (.wrRtcLatch v) = wordOf 0x02 c.addrRtcLatch.toNat v.toNat ∧
    word .rdBankHi = wordOf 0x01 c.addrBankHi.toNat 0 ∧ word (.wrBankHi v) = wordOf 0x02 c.addrBankHi.toNat v.toNat ∧
    word .rdBankLo = wordOf 0x01 c.addrBankLo.toNat 0 ∧ word (.wrBankLo v) = wordOf 0x02 c.addrBankLo.toNat v.toNat

/-- R91, R93-R95: the decoder reads back every well-formed transaction from its word and payload, every operand at every
value. -/
def Obligations.DecodeOfEncodeIsTheInstruction : Prop :=
  ∀ (c : Config) (i : Instr), c.Valid → i.wellFormed c = true → decode c (encode c i) (payloadOf i) = .ok i

/-- R91, R96, R99: a word is the encoding of whatever it decodes to, so no two words name one transaction with one payload. -/
def Obligations.EncodeOfDecodeIsTheWord : Prop :=
  ∀ (c : Config) (w : Word) (p : Payload) (i : Instr), p.wellFormed = true → decode c w p = .ok i →
    i.wellFormed c = true ∧ encode c i = w

/-- R97, R99: the decoder rejects exactly the words that agree with no row of the opcode map, and no word agrees with two. -/
def Obligations.RejectedWordsAreTheReservedOnes : Prop :=
  ∀ (c : Config) (w : Word) (p : Payload),
    ((∃ e, decode c w p = .error e) ↔ ∀ r ∈ opcodeMap, w &&& r.1 ≠ r.2) ∧
    (∀ r ∈ opcodeMap, ∀ r' ∈ opcodeMap, w &&& r.1 = r.2 → w &&& r'.1 = r'.2 → r = r')

/-- R97: a reserved word faults `IllegalOperation` and has no other effect on the block. That the transaction keeps its draw
number (log 6), its latched answers (log 8) and its response (log 9) in the state is the model's own. -/
def Obligations.ReservedWordFaultsOnly : Prop :=
  ∀ (s : State) (tx : Transaction), s.fault = none → (∀ r ∈ opcodeMap, tx.word &&& r.1 ≠ r.2) →
    perform tx s = .next { s.accept tx with
      fault := some .illegalOperation, response := some (.faulted .illegalOperation) }

/-- R62: the targets of addresses, whatever order the tests take. -/
def Obligations.AddressDecodeFindsEveryTarget : Prop :=
  ∀ (c : Config), c.Valid →
    (∀ a : Addr, a.toNat ≤ 0x3FFF → decodeAddr c a = .rom0) ∧
    (∀ a : Addr, 0x4000 ≤ a.toNat → a.toNat ≤ 0x7FFF → decodeAddr c a = .romx) ∧
    decodeAddr c c.addrIf = .IF ∧ decodeAddr c c.addrIe = .IE ∧ decodeAddr c c.addrDiv = .div ∧
    decodeAddr c c.addrTima = .tima ∧ decodeAddr c c.addrTma = .tma ∧ decodeAddr c c.addrTac = .tac ∧
    decodeAddr c c.addrJoyp = .joyp ∧ decodeAddr c c.addrRtcS = .rtcS ∧ decodeAddr c c.addrRtcM = .rtcM ∧
    decodeAddr c c.addrRtcH = .rtcH ∧ decodeAddr c c.addrRtcDl = .rtcDl ∧ decodeAddr c c.addrRtcDh = .rtcDh ∧
    decodeAddr c c.addrRtcLatch = .rtcLatch ∧ decodeAddr c c.addrBankHi = .bankHi ∧
    decodeAddr c c.addrBankLo = .bankLo ∧
    (∀ a : Addr, 0x8000 ≤ a.toNat → a ∉ c.addresses → decodeAddr c a = .unmapped)

/-- R94, R95 on words written out from the formats of R91, under instantiation T (R8) and the sample payload, which are the
model's choice (log 1, log 13). -/
def Obligations.SampleWordsDecode : Prop :=
  decodeTableWord 32 0b00000011000000000000000000000000 = some .tick ∧
  decodeTableWord 32 0b00010010000000000000000010000100 = some (.setie 4 true) ∧
  decodeTableWord 32 0b00100001000000000000000000000110 = some (.release .dPad 2) ∧
  decodeTableWord 32 0b01000000000000000000000100000000 = some (.setbankcount 2) ∧
  decodeTableWord 32 0b00000010111111110000011111111101 = some (.wrTac 0xFD#8) ∧
  decodeTableWord 32 0b00000001010000000000000100000000 = some (.rdRomx 1#14) ∧
  decodeTableWord 32 0b00000001000000000000000000000001 = none

/-! ### Steps, faults and failures -/

/-- R20, R67: a step takes the first pending transaction and runs the instruction it decodes to, on the state that has the
transaction's host answers and the next draw number; with nothing pending the block does not step. The queue of pending
transactions, the latched answers and the draw number are the model's choice (log 7, log 8, log 6). -/
def Obligations.StepRunsTheDecodedTransaction : Prop :=
  (∀ (s : State) (tx : Transaction) (rest : List Transaction) (i : Instr), s.pending = tx :: rest →
    decode s.cfg tx.word tx.payload = .ok i →
    step s = exec i { s with pending := rest, answers := tx.answers, draws := s.draws + 1 }) ∧
  (∀ (s : State), s.pending = [] → step s = .fault .noTransaction)

/-- R331: in a faulted state every transaction answers `Faulted(code)` and changes nothing of the block, a fault discards
every other effect, no operation clears it, and a faulted state is never a good end of a run. That the answer of a stuck
state is a next state is the model's reading (log 10); the draw number and the latched answers that `accept` writes are the
model's own (log 6, log 8). -/
def Obligations.FaultsAreStickyAndChangeNothingElse : Prop :=
  (∀ (s : State) (code : FaultCode), s.fault = some code →
    (∀ i, exec i s = .next { s with response := some (.faulted code) }) ∧
    (∀ tx, perform tx s = .next { s.accept tx with response := some (.faulted code) }) ∧
    (∀ txs, ¬ EndsWell txs s)) ∧
  (∀ (s t : State) (tx : Transaction) (code : FaultCode), s.fault = none → perform tx s = .next t →
    t.fault = some code → t = { s.accept tx with fault := some code, response := some (.faulted code) })

/-- R331 over a run: from a faulted state every response of every run is `Faulted(code)`, and the final state differs from
the first in the model's own input and output fields (log 6, log 8, log 9) only. That a faulted state answers at all is the
model's reading (log 10). -/
def Obligations.FaultedRunNeverRecovers : Prop :=
  ∀ (txs : List Transaction) (s : State) (code : FaultCode), s.fault = some code →
    responses txs s = List.replicate txs.length (some (.faulted code)) ∧
    ∃ t, performAll txs s = .next t ∧
      t = { s with answers := t.answers, draws := t.draws, response := t.response }

/-- R330: which operation raises which code, and when. -/
def Obligations.FaultCodesAreRaisedAsTabled : Prop :=
  ∀ (i : Instr) (s t : State), s.fault = none → exec i s = .next t →
    (t.fault = some .illegalOperation ↔ s.svc = .idle ∧ ∃ r, i = .hret r) ∧
    (t.fault = some .invalidKind ↔ ∃ k : Kind, s.cfg.intKindCount ≤ k.val ∧
      (i = .req k ∨ i = .cancel k ∨ (∃ f, i = .setie k f) ∨ (∃ p, i = .sethandler k p))) ∧
    (t.fault = some .unmappedAddress ↔ (∃ a, i = .rdUnmapped a) ∨ (∃ a v, i = .wrUnmapped a v)) ∧
    (t.fault = some .readOnlyWrite ↔ (∃ a v, i = .wrRom0 a v) ∨ (∃ a v, i = .wrRomx a v) ∨
      (∃ v, i = .wrRtcS v ∨ i = .wrRtcM v ∨ i = .wrRtcH v ∨ i = .wrRtcDl v ∨ i = .wrRtcDh v)) ∧
    (t.fault = some .reentrantService ↔ s.svc ≠ .idle ∧ i = .service) ∧
    (t.fault = some .invalidBankCount ↔ ∃ n, (n < 1 ∨ 65536 < n) ∧ i = .setbankcount n) ∧
    (t.fault = some .invalidName ↔ ∃ f name, (name.length = 0 ∨ 32 < name.length) ∧
      ((∃ bytes, i = .load f name bytes) ∨ (s.answers.file ≠ none ∧ ∃ path, i = .loadfile f name path))) ∧
    (t.fault = some .addressOutOfWindow ↔ ∃ a : Addr, 0x8000 ≤ a.toNat ∧ i = .readbyte a)

/-- R332: a failure, and `Absent`, leave the state unchanged and do not fault, and each reason comes only from the operations
and the cause its row names. The premise on the bank count is a clause of the invariant. -/
def Obligations.FailuresLeaveTheStateUnchanged : Prop :=
  ∀ (i : Instr) (s t : State), s.fault = none → 1 ≤ s.bankCount → exec i s = .next t →
    (∀ r, t.response = some (.fail r) → t = { s with response := some (.fail r) } ∧ t.fault = none) ∧
    (t.response = some .absent → t = { s with response := some .absent } ∧
      ∃ name, s.handles.find name = none ∧ i = .lookup name) ∧
    (t.response = some (.fail .bankUnmapped) →
      s.bankCount ≤ s.currentBank.toNat ∧ ((∃ a, i = .rdRomx a) ∨ (∃ a : Addr, 0x4000 ≤ a.toNat ∧ i = .readbyte a))) ∧
    (t.response = some (.fail .bankOutOfRange) →
      (∃ h, s.bankCount ≤ h.bank.toNat ∧ i = .gotoHandle h) ∨
      (s.bankCount ≤ s.currentBank.toNat ∧
        ∃ name, (∃ bytes, i = .load false name bytes) ∨ (∃ path, i = .loadfile false name path))) ∧
    (t.response = some (.fail .duplicateName) → ∃ f name, (s.handles.find name).isSome = true ∧
      ((∃ bytes, i = .load f name bytes) ∨ (∃ path, i = .loadfile f name path))) ∧
    (t.response = some (.fail .noSpace) → ∃ f name bytes,
      16384 < s.fillOf (if f then 0 else s.currentBank.toNat) + bytes.length ∧
      (i = .load f name bytes ∨ (s.answers.file = some bytes ∧ ∃ path, i = .loadfile f name path))) ∧
    (t.response = some (.fail .allocFail) → s.answers.alloc = false ∧
      ((∃ f name bytes, i = .load f name bytes) ∨ (∃ f name path, i = .loadfile f name path) ∨
        (∃ n, i = .setbankcount n))) ∧
    (t.response = some (.fail .fileError) → s.answers.file = none ∧ ∃ f name path, i = .loadfile f name path)

/-- R12: every transaction returns one response; none stops the model. That a transaction in a faulted state, which has no
step by R331, is answered by a next state is the model's reading (log 10); the response is a field of the model's own
(log 9). -/
def Obligations.EveryTransactionIsAnswered : Prop :=
  ∀ (tx : Transaction) (s : State), ∃ t r, perform tx s = .next t ∧ t.response = some r

/-! ### Interrupt Controller -/

/-- R121: REQ sets its kind's IF bit and nothing else; a kind at or above N faults `InvalidKind`. -/
def Obligations.ReqSetsOnlyItsFlag : Prop :=
  ∀ (k : Kind) (s : State), s.fault = none →
    (k.val < s.cfg.intKindCount → ∃ t, exec (.req k) s = .next t ∧
      (∀ j, j < 8 → t.IF.getLsbD j = (decide (j = k.val) || s.IF.getLsbD j)) ∧
      t = { s with IF := t.IF, response := some .ok }) ∧
    (s.cfg.intKindCount ≤ k.val →
      exec (.req k) s = .next { s with fault := some .invalidKind, response := some (.faulted .invalidKind) })

/-- R122: CANCEL clears its kind's IF bit and nothing else; a kind at or above N faults `InvalidKind`. -/
def Obligations.CancelClearsOnlyItsFlag : Prop :=
  ∀ (k : Kind) (s : State), s.fault = none →
    (k.val < s.cfg.intKindCount → ∃ t, exec (.cancel k) s = .next t ∧
      (∀ j, j < 8 → t.IF.getLsbD j = (decide (j ≠ k.val) && s.IF.getLsbD j)) ∧
      t = { s with IF := t.IF, response := some .ok }) ∧
    (s.cfg.intKindCount ≤ k.val →
      exec (.cancel k) s = .next { s with fault := some .invalidKind, response := some (.faulted .invalidKind) })

/-- R123: SETIE writes its kind's IE bit and nothing else; a kind at or above N faults `InvalidKind`. -/
def Obligations.SetieWritesOnlyItsBit : Prop :=
  ∀ (k : Kind) (f : Bool) (s : State), s.fault = none →
    (k.val < s.cfg.intKindCount → ∃ t, exec (.setie k f) s = .next t ∧
      (∀ j, j < 8 → t.IE.getLsbD j = if j = k.val then f else s.IE.getLsbD j) ∧
      t = { s with IE := t.IE, response := some .ok }) ∧
    (s.cfg.intKindCount ≤ k.val →
      exec (.setie k f) s = .next { s with fault := some .invalidKind, response := some (.faulted .invalidKind) })

/-- R124, R128: SETIME writes IME; RETI makes it true; neither changes anything else, and SETIME 1 is RETI. -/
def Obligations.SetimeAndRetiWriteOnlyIme : Prop :=
  ∀ (s : State), s.fault = none →
    (∀ f, exec (.setime f) s = .next { s with IME := f, response := some .ok }) ∧
    exec .reti s = .next { s with IME := true, response := some .ok } ∧
    exec .reti s = exec (.setime true) s

/-- R125: SETHANDLER writes its kind's entry of the handler table and nothing else, `svc` included; a kind at or above N
faults `InvalidKind`. The premise is a clause of the invariant. -/
def Obligations.SethandlerWritesOnlyItsEntry : Prop :=
  ∀ (k : Kind) (p : Bool) (s : State), s.fault = none → s.handlers.length = s.cfg.intKindCount →
    (k.val < s.cfg.intKindCount → ∃ t, exec (.sethandler k p) s = .next t ∧
      t.handlers.length = s.handlers.length ∧
      (∀ j : Kind, t.hasHandler j = if j = k then p else s.hasHandler j) ∧
      t = { s with handlers := t.handlers, response := some .ok }) ∧
    (s.cfg.intKindCount ≤ k.val →
      exec (.sethandler k p) s = .next { s with fault := some .invalidKind, response := some (.faulted .invalidKind) })

/-- R126: every case of SERVICE. Inside a handler it faults; with IME false or no kind pending and enabled it answers NONE
and changes nothing; otherwise the lowest such kind is acknowledged, and its handler runs if it has one. -/
def Obligations.ServiceTakesTheLowestEligibleKind : Prop :=
  ∀ (s : State), s.fault = none →
    (∀ k, s.svc = .inHandler k → exec .service s =
      .next { s with fault := some .reentrantService, response := some (.faulted .reentrantService) }) ∧
    (s.svc = .idle → s.IME = false → exec .service s = .next { s with response := some (.service .NONE) }) ∧
    (s.svc = .idle →
      (∀ k : Kind, k.val < s.cfg.intKindCount → s.IF.getLsbD k.val = true → s.IE.getLsbD k.val = false) →
      exec .service s = .next { s with response := some (.service .NONE) }) ∧
    (∀ k : Kind, s.svc = .idle → s.IME = true → k.val < s.cfg.intKindCount → s.IF.getLsbD k.val = true →
      s.IE.getLsbD k.val = true →
      (∀ j : Kind, j.val < k.val → s.IF.getLsbD j.val = true → s.IE.getLsbD j.val = false) →
      ∃ t, exec .service s = .next t ∧
        (∀ j, j < 8 → t.IF.getLsbD j = (decide (j ≠ k.val) && s.IF.getLsbD j)) ∧
        (s.hasHandler k = true →
          t = { s with IF := t.IF, IME := false, svc := .inHandler k, response := some .pending }) ∧
        (s.hasHandler k = false → t = { s with IF := t.IF, IME := false, response := some (.service .NONE) }))

/-- R127: HRET ends the running handler with its result and leaves IME alone; with no handler running it faults. -/
def Obligations.HretEndsTheHandler : Prop :=
  ∀ (r : Bool) (s : State), s.fault = none →
    (∀ k, s.svc = .inHandler k → exec (.hret r) s = .next { s with
      svc := .idle, response := some (.service (if r then .HANDLED_OK else .HANDLED_FAIL)) }) ∧
    (s.svc = .idle → exec (.hret r) s =
      .next { s with fault := some .illegalOperation, response := some (.faulted .illegalOperation) })

/-- R130-R133, R163-R166: IF, IE, TIMA and TMA are read and written verbatim on the bus. -/
def Obligations.IfIeTimaTmaAreVerbatim : Prop :=
  ∀ (s : State) (v : Byte), s.fault = none →
    exec .rdIf s = .next { s with response := some (.byte s.IF) } ∧
    exec (.wrIf v) s = .next { s with IF := v, response := some .ok } ∧
    exec .rdIe s = .next { s with response := some (.byte s.IE) } ∧
    exec (.wrIe v) s = .next { s with IE := v, response := some .ok } ∧
    exec .rdTima s = .next { s with response := some (.byte s.counter) } ∧
    exec (.wrTima v) s = .next { s with counter := v, response := some .ok } ∧
    exec .rdTma s = .next { s with response := some (.byte s.modulo) } ∧
    exec (.wrTma v) s = .next { s with modulo := v, response := some .ok }

/-- R129, R337: with kinds j < k the two lowest pending and enabled, SERVICE takes j; after its handler, if any, returns, a
second SERVICE answers NONE and changes nothing until RETI; after RETI it takes k. -/
def Obligations.TwoServicesFollowPriority : Prop :=
  ∀ (s : State) (j k : Kind) (r : Bool), s.fault = none → s.svc = .idle → s.IME = true → j.val < k.val →
    s.requesting j = true → s.requesting k = true →
    (∀ m : Kind, m.val < k.val → m ≠ j → s.requesting m = false) →
    ∃ t u v w, exec .service s = .next t ∧
      (if s.hasHandler j then exec (.hret r) t = .next u else u = t) ∧
      u.IF.getLsbD j.val = false ∧ u.IF.getLsbD k.val = true ∧ u.IME = false ∧
      exec .service u = .next { u with response := some (.service .NONE) } ∧
      exec .reti u = .next v ∧ exec .service v = .next w ∧
      (∀ m, m < 8 → w.IF.getLsbD m = (decide (m ≠ j.val) && decide (m ≠ k.val) && s.IF.getLsbD m))

/-- R335: a pending kind stops pending only when it is serviced, cancelled, or written with a 0 in IF; a serviced kind was
the lowest eligible one. -/
def Obligations.PendingEndsOnlyByServiceOrCancel : Prop :=
  ∀ (i : Instr) (s t : State) (k : Kind), exec i s = .next t → s.IF.getLsbD k.val = true → t.IF.getLsbD k.val = false →
    (i = .service ∧ s.eligible k = true ∧ ∀ j : Kind, j.val < k.val → s.eligible j = false) ∨ i = .cancel k ∨
    (∃ v : Byte, v.getLsbD k.val = false ∧ i = .wrIf v)

/-- R334: an IF bit becomes set only by a timer overflow on a tick (the Timer enabled, the counter at 0xFF and the selected
divider bit falling: before the tick it and every bit below it are 1, R169), a press transition in a selected group, a latch
that changes a field, REQ, or a write of IF; the first three set only their own kind. -/
def Obligations.InterruptSources : Prop :=
  ∀ (i : Instr) (s t : State) (k : Nat), exec i s = .next t → s.IF.getLsbD k = false → t.IF.getLsbD k = true →
    (i = .tick ∧ k = s.cfg.kindTimer.val ∧ s.enabled = true ∧ s.counter = 0xFF#8 ∧
      ∃ b, SpeedSelects s.clockSpeed b ∧ s.divider.toNat % 2 ^ (b + 1) = 2 ^ (b + 1) - 1) ∨
    (∃ g l, i = .press g l ∧ k = s.cfg.kindJoypad.val ∧ s.selected g = true ∧ (s.groupField g).getLsbD l.val = true) ∨
    ((i = .latch ∨ ∃ v, i = .wrRtcLatch v) ∧ k = s.cfg.kindRtc.val ∧
      s.cfg.rtcDerive.derive s.answers.wall ≠ s.rtcFields) ∨
    (∃ j : Kind, i = .req j ∧ k = j.val ∧ j.val < s.cfg.intKindCount) ∨
    (∃ v : Byte, i = .wrIf v ∧ v.getLsbD k = true)

/-- R25-R28: the only writers of IE, IME, the handler table and the service phase. -/
def Obligations.WritersOfInterruptControl : Prop :=
  ∀ (i : Instr) (s t : State), exec i s = .next t →
    (t.IE ≠ s.IE → (∃ k f, i = .setie k f) ∨ (∃ v, i = .wrIe v)) ∧
    (t.IME ≠ s.IME → (∃ f, i = .setime f) ∨ i = .service ∨ i = .reti) ∧
    (t.handlers ≠ s.handlers → ∃ k p, i = .sethandler k p) ∧
    (t.svc ≠ s.svc → i = .service ∨ ∃ r, i = .hret r)

/-! ### Timer -/

/-- R160, with the edge as R169 puts it: TICK advances the divider, and clocks the counter exactly when the Timer is enabled
and the selected bit and every bit below it are 1 before the tick. -/
def Obligations.TickAdvancesDividerAndClocksOnFallingEdge : Prop :=
  ∀ (s : State) (b : Nat), s.fault = none → SpeedSelects s.clockSpeed b →
    ∃ t, exec .tick s = .next t ∧
      t.oldDivider = s.divider ∧ t.divider.toNat = (s.divider.toNat + 1) % 2 ^ 16 ∧
      (¬ (s.enabled = true ∧ s.divider.toNat % 2 ^ (b + 1) = 2 ^ (b + 1) - 1) → t.counter = s.counter ∧ t.IF = s.IF) ∧
      (s.enabled = true → s.divider.toNat % 2 ^ (b + 1) = 2 ^ (b + 1) - 1 → s.counter.toNat < 255 →
        t.counter.toNat = s.counter.toNat + 1 ∧ t.IF = s.IF) ∧
      (s.enabled = true → s.divider.toNat % 2 ^ (b + 1) = 2 ^ (b + 1) - 1 → s.counter.toNat = 255 →
        t.counter = s.modulo ∧ ∀ j, j < 8 → t.IF.getLsbD j = (decide (j = s.cfg.kindTimer.val) || s.IF.getLsbD j)) ∧
      t = { s with
        oldDivider := t.oldDivider, divider := t.divider, counter := t.counter, IF := t.IF, response := some .ok }

/-- R169, R160: over any run of n ticks from divider d and counter c, with the Timer enabled at a speed that selects bit b,
the counter is clocked m = (d mod 2^(b+1) + n) / 2^(b+1) times, so first on tick 2^(b+1) - d mod 2^(b+1) and then every
2^(b+1) ticks. Up to clock 255 - c it counts and IF is unchanged; the (256 - c)-th clock overflows, reloads the modulo and
requests the Timer interrupt, and from there the counter runs through modulo..255 again and again. Nothing else of the block
changes but `oldDivider`; the draw number, the latched answers and the response are the model's own fields (log 6, log 8,
log 9). -/
def Obligations.CounterClocksOncePerPeriod : Prop :=
  ∀ (txs : List Transaction) (s : State) (b m : Nat), AllTicks txs → s.fault = none → s.enabled = true →
    SpeedSelects s.clockSpeed b → m = (s.divider.toNat % 2 ^ (b + 1) + txs.length) / 2 ^ (b + 1) →
    ∃ t, performAll txs s = .next t ∧
      t.divider.toNat = (s.divider.toNat + txs.length) % 2 ^ 16 ∧
      (s.counter.toNat + m < 256 → t.counter.toNat = s.counter.toNat + m ∧ t.IF = s.IF) ∧
      (256 ≤ s.counter.toNat + m →
        t.counter.toNat = s.modulo.toNat + (s.counter.toNat + m - 256) % (256 - s.modulo.toNat) ∧
        ∀ j, j < 8 → t.IF.getLsbD j = (decide (j = s.cfg.kindTimer.val) || s.IF.getLsbD j)) ∧
      t = { s with
        oldDivider := t.oldDivider, divider := t.divider, counter := t.counter, IF := t.IF, answers := t.answers,
        draws := t.draws, response := t.response }

/-- R160: with the Timer disabled any number of ticks advances the divider by that number and changes nothing
else of the block but `oldDivider`; the draw number, the latched answers and the response are the model's own fields (log 6,
log 8, log 9). -/
def Obligations.DisabledTimerNeverCounts : Prop :=
  ∀ (txs : List Transaction) (s : State), AllTicks txs → s.fault = none → s.enabled = false →
    ∃ t, performAll txs s = .next t ∧ t.divider.toNat = (s.divider.toNat + txs.length) % 2 ^ 16 ∧
      t = { s with
        oldDivider := t.oldDivider, divider := t.divider, answers := t.answers, draws := t.draws, response := t.response }

/-- R161, R162: a DIV read gives the divider's upper 8 bits; a DIV write of any value clears the whole divider, clocks
nothing, and a read after it gives 0. -/
def Obligations.DivReadsHighByteAndClearsOnWrite : Prop :=
  ∀ (s : State) (v : Byte), s.fault = none →
    (∃ x : Byte, x.toNat = s.divider.toNat / 256 ∧ exec .rdDiv s = .next { s with response := some (.byte x) }) ∧
    exec (.wrDiv v) s = .next { s with divider := 0x0000#16, response := some .ok } ∧
    (∀ t, exec (.wrDiv v) s = .next t → exec .rdDiv t = .next { t with response := some (.byte 0x00#8) })

/-- R167, R168: TAC holds the speed in bits 1:0 and the enable in bit 2; a write ignores bits 7:3 and clocks nothing; of
bits 7:3 of a read nothing is said. -/
def Obligations.TacHoldsSpeedAndEnable : Prop :=
  ∀ (s : State), s.fault = none →
    (∃ x : Byte, exec .rdTac s = .next { s with response := some (.byte x) } ∧
      x.toNat % 4 = s.clockSpeed.toNat ∧ x.getLsbD 2 = s.enabled) ∧
    (∀ v : Byte, ∃ t, exec (.wrTac v) s = .next t ∧ t.clockSpeed.toNat = v.toNat % 4 ∧ t.enabled = v.getLsbD 2 ∧
      t = { s with clockSpeed := t.clockSpeed, enabled := t.enabled, response := some .ok })

/-- R29-R33: the only writers of the Timer's registers. -/
def Obligations.WritersOfTheTimer : Prop :=
  ∀ (i : Instr) (s t : State), exec i s = .next t →
    (t.divider ≠ s.divider → i = .tick ∨ ∃ v, i = .wrDiv v) ∧
    (t.oldDivider ≠ s.oldDivider → i = .tick) ∧
    (t.counter ≠ s.counter → i = .tick ∨ ∃ v, i = .wrTima v) ∧
    (t.modulo ≠ s.modulo → ∃ v, i = .wrTma v) ∧
    (t.clockSpeed ≠ s.clockSpeed ∨ t.enabled ≠ s.enabled → ∃ v, i = .wrTac v)

/-- R30: `oldDivider` is unobservable. Two states that differ in it alone give the same response to every transaction and
next states that differ in it at most; after a tick they do not differ. -/
def Obligations.OldDividerIsUnobservable : Prop :=
  ∀ (i : Instr) (s t : State) (x : BitVec 16), exec i s = .next t →
    ∃ u, exec i { s with oldDivider := x } = .next u ∧ u = { t with oldDivider := u.oldDivider } ∧
      (i = .tick → s.fault = none → u = t)

/-! ### Joypad -/

/-- R202: PRESS clears its line; if the line was 1 and the group selected it requests the Joypad interrupt; a line already 0
changes nothing. -/
def Obligations.PressClearsItsLineAndRequestsOnEdge : Prop :=
  ∀ (g : Group) (l : Line) (s : State), s.fault = none →
    ((s.groupField g).getLsbD l.val = false → exec (.press g l) s = .next { s with response := some .ok }) ∧
    ((s.groupField g).getLsbD l.val = true → ∃ t, exec (.press g l) s = .next t ∧
      (∀ n, n < 4 → (t.groupField g).getLsbD n = (decide (n ≠ l.val) && (s.groupField g).getLsbD n)) ∧
      (s.selected g = true →
        ∀ j, j < 8 → t.IF.getLsbD j = (decide (j = s.cfg.kindJoypad.val) || s.IF.getLsbD j)) ∧
      (s.selected g = false → t.IF = s.IF) ∧
      (g = .buttons → t = { s with buttons := t.buttons, IF := t.IF, response := some .ok }) ∧
      (g = .dPad → t = { s with dPad := t.dPad, IF := t.IF, response := some .ok }))

/-- R203: RELEASE sets its line and requests nothing; a press of a released line followed by its release restores both
fields and, in an unselected group, the whole state but the response. -/
def Obligations.ReleaseSetsItsLine : Prop :=
  ∀ (g : Group) (l : Line) (s : State), s.fault = none →
    (∃ t, exec (.release g l) s = .next t ∧
      (∀ n, n < 4 → (t.groupField g).getLsbD n = (decide (n = l.val) || (s.groupField g).getLsbD n)) ∧
      (g = .buttons → t = { s with buttons := t.buttons, response := some .ok }) ∧
      (g = .dPad → t = { s with dPad := t.dPad, response := some .ok })) ∧
    ((s.groupField g).getLsbD l.val = true → ∀ t, exec (.press g l) s = .next t →
      ∃ u, exec (.release g l) t = .next u ∧ u = { s with IF := u.IF, response := some .ok } ∧ u.IF = t.IF ∧
        (s.selected g = false → u = { s with response := some .ok }))

/-- R204: a JOYP read shows the select flags inverted in bits 5 and 4 and the selected group's field in bits 3:0, the
buttons first; it changes nothing. Of the other bits nothing is said. -/
def Obligations.JoypReadShowsTheSelectedGroup : Prop :=
  ∀ (s : State), s.fault = none → ∃ x : Byte, exec .rdJoyp s = .next { s with response := some (.byte x) } ∧
    x.getLsbD 5 = !s.selectButtons ∧ x.getLsbD 4 = !s.selectDPad ∧
    (s.selectButtons = true → x.toNat % 16 = s.buttons.toNat) ∧
    (s.selectButtons = false → s.selectDPad = true → x.toNat % 16 = s.dPad.toNat)

/-- R205: a JOYP write stores the select flags, inverted, from bits 5 and 4 and nothing else, and requests nothing. -/
def Obligations.JoypWriteStoresOnlyTheSelectBits : Prop :=
  ∀ (s : State) (v : Byte), s.fault = none → exec (.wrJoyp v) s =
    .next { s with
      selectButtons := decide (v.toNat / 32 % 2 = 0), selectDPad := decide (v.toNat / 16 % 2 = 0),
      response := some .ok }

/-- R206: PRESS and RELEASE are the only writers of the button fields, WR JOYP of the select flags; a press flips bits from
1 to 0 only and a release from 0 to 1 only; and a press sets an IF bit only on a transition in a selected group. -/
def Obligations.WritersOfTheJoypad : Prop :=
  ∀ (i : Instr) (s t : State), exec i s = .next t →
    (t.buttons ≠ s.buttons → ∃ l, i = .press .buttons l ∨ i = .release .buttons l) ∧
    (t.dPad ≠ s.dPad → ∃ l, i = .press .dPad l ∨ i = .release .dPad l) ∧
    (t.selectButtons ≠ s.selectButtons ∨ t.selectDPad ≠ s.selectDPad → ∃ v, i = .wrJoyp v) ∧
    (∀ g l n, i = .press g l → (t.groupField g).getLsbD n = true → (s.groupField g).getLsbD n = true) ∧
    (∀ g l n, i = .release g l → (s.groupField g).getLsbD n = true → (t.groupField g).getLsbD n = true) ∧
    (∀ g l, i = .press g l → t.IF ≠ s.IF → s.selected g = true ∧ (s.groupField g).getLsbD l.val = true)

/-! ### Real-Time Clock -/

/-- R230, R238: LATCH, and a write of RTC_LATCH of any value, replace the five fields by those the sample derives and request
the RTC interrupt exactly when one of them changed. -/
def Obligations.LatchReplacesFieldsAndRequestsOnChange : Prop :=
  ∀ (s : State) (v : Byte), s.fault = none →
    ∃ t, exec .latch s = .next t ∧ exec (.wrRtcLatch v) s = .next t ∧ t.rtcFields = s.cfg.rtcDerive.derive s.answers.wall ∧
      (t.rtcFields = s.rtcFields → t.IF = s.IF) ∧
      (t.rtcFields ≠ s.rtcFields →
        ∀ j, j < 8 → t.IF.getLsbD j = (decide (j = s.cfg.kindRtc.val) || s.IF.getLsbD j)) ∧
      t = { s with
        seconds := t.seconds, minutes := t.minutes, hours := t.hours, dayLow := t.dayLow, dayHigh := t.dayHigh,
        IF := t.IF, response := some .ok }

/-- R230, R231: after a latch, a second latch at the same sample requests nothing, and one a second later requests the RTC
interrupt, under the constraint R231 puts on `RTC_DERIVE`. The form of a sample, broken-down time, and which samples are
adjacent, a year ending after day-of-year 364 or 365, are the model's choice (log 2). -/
def Obligations.SecondLatchRequestsOnlyAcrossASecond : Prop :=
  ∀ (s t : State) (a : HostAnswers), s.fault = none → exec .latch s = .next t →
    (a.wall = s.answers.wall → exec .latch { t with answers := a } = .next { t with answers := a, response := some .ok }) ∧
    (s.cfg.rtcDerive.Lawful → s.answers.wall.Adjacent a.wall →
      ∃ u, exec .latch { t with answers := a } = .next u ∧ u.IF.getLsbD s.cfg.kindRtc.val = true)

/-- R233-R237, R240: the RTC registers read as last latched, without sampling; a read of the latch trigger returns a byte of
which nothing is said and does not latch. -/
def Obligations.RtcReadsTheLastLatch : Prop :=
  ∀ (s : State), s.fault = none →
    exec .rdRtcS s = .next { s with response := some (.byte s.seconds) } ∧
    exec .rdRtcM s = .next { s with response := some (.byte s.minutes) } ∧
    exec .rdRtcH s = .next { s with response := some (.byte s.hours) } ∧
    exec .rdRtcDl s = .next { s with response := some (.byte s.dayLow) } ∧
    exec .rdRtcDh s = .next { s with response := some (.byte s.dayHigh) } ∧
    (∃ x, exec .rdRtcLatch s = .next { s with response := some (.byte x) })

/-- R239, R241-R244, R277, R278: a write of a read-only RTC register or of a window always faults `ReadOnlyWrite` and changes
nothing else. -/
def Obligations.ReadOnlyWritesFault : Prop :=
  ∀ (i : Instr) (s : State), s.fault = none →
    ((∃ v, i = .wrRtcS v ∨ i = .wrRtcM v ∨ i = .wrRtcH v ∨ i = .wrRtcDl v ∨ i = .wrRtcDh v) ∨
      (∃ a v, i = .wrRom0 a v ∨ i = .wrRomx a v)) →
    exec i s = .next { s with fault := some .readOnlyWrite, response := some (.faulted .readOnlyWrite) }

/-! ### Banked Data Store -/

/-- R260: every case of SETBANKCOUNT. Kept banks keep bytes and fill, an added bank has fill 0 and holds a draw, and
nothing else changes, `currentBank` and the handles included. Which draw number an added bank takes is the model's choice
(log 6, log 17). -/
def Obligations.SetbankcountKeepsTheCommonBanks : Prop :=
  ∀ (n : Nat) (s : State), s.fault = none → s.Inv →
    (n < 1 ∨ 65536 < n → exec (.setbankcount n) s =
      .next { s with fault := some .invalidBankCount, response := some (.faulted .invalidBankCount) }) ∧
    (1 ≤ n → n ≤ 65536 → s.answers.alloc = false →
      exec (.setbankcount n) s = .next { s with response := some (.fail .allocFail) }) ∧
    (1 ≤ n → n ≤ 65536 → s.answers.alloc = true → ∃ t, exec (.setbankcount n) s = .next t ∧ t.bankCount = n ∧
      (∀ b o, b < s.bankCount → b < n → o < bankSize → t.bankByte b o = s.bankByte b o ∧ t.fillOf b = s.fillOf b) ∧
      (∀ b o, s.bankCount ≤ b → b < n → o < bankSize →
        t.bankByte b o = Config.drawNewBank s.draws b o ∧ t.fillOf b = 0) ∧
      t = { s with
        bankCount := t.bankCount, banks := t.banks, fill := t.fill, origins := t.origins, response := some .ok } ∧
      (n = s.bankCount → t = { s with response := some .ok }))

/-- R261, R280-R283, R102: SETBANK stores any value; the register pair writes the high and the low byte; the two writes of
`SETBANK16 n` in order leave n; a read of the pair answers a byte of which nothing is said, and changes nothing. -/
def Obligations.BankSelectPairWritesCurrentBank : Prop :=
  ∀ (s : State), s.fault = none →
    (∀ n, exec (.setbank n) s = .next { s with currentBank := n, response := some .ok }) ∧
    (∀ v : Byte, ∃ t, exec (.wrBankHi v) s = .next t ∧
      t.currentBank.toNat = v.toNat * 256 + s.currentBank.toNat % 256 ∧
      t = { s with currentBank := t.currentBank, response := some .ok }) ∧
    (∀ v : Byte, ∃ t, exec (.wrBankLo v) s = .next t ∧
      t.currentBank.toNat = s.currentBank.toNat / 256 * 256 + v.toNat ∧
      t = { s with currentBank := t.currentBank, response := some .ok }) ∧
    (∀ n i j, Pseudo.expand (.setbank16 n) = [i, j] → ∃ t, exec i s = .next t ∧
      exec j t = .next { s with currentBank := n, response := some .ok }) ∧
    (∃ x, exec .rdBankHi s = .next { s with response := some (.byte x) }) ∧
    (∃ x, exec .rdBankLo s = .next { s with response := some (.byte x) })

/-- R265: a LOAD that passes every check of R264 copies its bytes to the target bank from its fill position, ascending,
moves the fill position, records the handle and answers it; every other byte, fill position and handle is unchanged. A
LOADFILE whose file is read does the same (R266). -/
def Obligations.LoadPlacesBytesAndRecordsTheHandle : Prop :=
  ∀ (f : Bool) (name : Name) (bytes : List Byte) (s : State) (tb : BitVec 16), s.fault = none → s.Inv →
    tb = (if f then 0#16 else s.currentBank) → 1 ≤ name.length → name.length ≤ 32 → s.handles.find name = none →
    tb.toNat < s.bankCount → s.fillOf tb.toNat + bytes.length ≤ 16384 → s.answers.alloc = true →
    ∃ t, exec (.load f name bytes) s = .next t ∧
      (∀ path, s.answers.file = some bytes → exec (.loadfile f name path) s = .next t) ∧
      t.response = some (.handle ⟨bytes.length, s.fillOf tb.toNat, tb⟩) ∧
      (∀ i (h : i < bytes.length), t.bankByte tb.toNat (s.fillOf tb.toNat + i) = bytes[i]) ∧
      (∀ b o, o < 16384 → ¬ (b = tb.toNat ∧ s.fillOf tb.toNat ≤ o ∧ o < s.fillOf tb.toNat + bytes.length) →
        t.bankByte b o = s.bankByte b o) ∧
      t.fillOf tb.toNat = s.fillOf tb.toNat + bytes.length ∧ (∀ b, b ≠ tb.toNat → t.fillOf b = s.fillOf b) ∧
      t.handles.find name = some ⟨bytes.length, s.fillOf tb.toNat, tb⟩ ∧
      (∀ other, other ≠ name → t.handles.find other = s.handles.find other) ∧
      t = { s with banks := t.banks, fill := t.fill, handles := t.handles, response := t.response }

/-- R264: LOAD checks its conditions in order and the first that applies decides; no failure changes the state. -/
def Obligations.LoadChecksInOrder : Prop :=
  ∀ (f : Bool) (name : Name) (bytes : List Byte) (s : State) (tb : BitVec 16), s.fault = none →
    tb = (if f then 0#16 else s.currentBank) →
    (name.length = 0 ∨ 32 < name.length → exec (.load f name bytes) s =
      .next { s with fault := some .invalidName, response := some (.faulted .invalidName) }) ∧
    (1 ≤ name.length → name.length ≤ 32 → s.handles.find name ≠ none → exec (.load f name bytes) s =
      .next { s with response := some (.fail .duplicateName) }) ∧
    (1 ≤ name.length → name.length ≤ 32 → s.handles.find name = none → s.bankCount ≤ tb.toNat →
      exec (.load f name bytes) s = .next { s with response := some (.fail .bankOutOfRange) }) ∧
    (1 ≤ name.length → name.length ≤ 32 → s.handles.find name = none → tb.toNat < s.bankCount →
      16384 < s.fillOf tb.toNat + bytes.length →
      exec (.load f name bytes) s = .next { s with response := some (.fail .noSpace) }) ∧
    (1 ≤ name.length → name.length ≤ 32 → s.handles.find name = none → tb.toNat < s.bankCount →
      s.fillOf tb.toNat + bytes.length ≤ 16384 → s.answers.alloc = false →
      exec (.load f name bytes) s = .next { s with response := some (.fail .allocFail) })

/-- R266: LOADFILE fails with `FileError` when the host's read does, before any check; otherwise it has every
outcome of LOAD of the file's bytes. -/
def Obligations.LoadfileDelegatesToLoad : Prop :=
  ∀ (f : Bool) (name path : Name) (s : State), s.fault = none →
    (s.answers.file = none → exec (.loadfile f name path) s = .next { s with response := some (.fail .fileError) }) ∧
    (∀ bytes, s.answers.file = some bytes → exec (.loadfile f name path) s = exec (.load f name bytes) s)

/-- R267: GOTO sets `currentBank` to the record's bank, and fails without effect when that bank is out of range; it reads
nothing else of the record. -/
def Obligations.GotoSelectsTheHandlesBank : Prop :=
  ∀ (h : Handle) (s : State), s.fault = none →
    (h.bank.toNat < s.bankCount → exec (.gotoHandle h) s = .next { s with currentBank := h.bank, response := some .ok }) ∧
    (s.bankCount ≤ h.bank.toNat → exec (.gotoHandle h) s = .next { s with response := some (.fail .bankOutOfRange) })

/-- R268: LOOKUP answers the handle of exactly that name, or `Absent`, and changes nothing. -/
def Obligations.LookupFindsTheExactName : Prop :=
  ∀ (name : Name) (s : State), s.fault = none → HandleTable.wf s.handles →
    (∀ h, (name, h) ∈ s.handles → exec (.lookup name) s = .next { s with response := some (.handle h) }) ∧
    ((∀ h, (name, h) ∉ s.handles) → exec (.lookup name) s = .next { s with response := some .absent })

/-- R275: READBYTE of the low window reads bank 0 and never fails; of the high window it reads the selected bank or fails
`BankUnmapped`; at or above 0x8000 it faults. -/
def Obligations.ReadbyteReadsTheWindows : Prop :=
  ∀ (a : Addr) (s : State), s.fault = none →
    (a.toNat < 16384 → exec (.readbyte a) s = .next { s with response := some (.byte (s.bankByte 0 a.toNat)) }) ∧
    (16384 ≤ a.toNat → a.toNat < 32768 → s.currentBank.toNat < s.bankCount → exec (.readbyte a) s =
      .next { s with response := some (.byte (s.bankByte s.currentBank.toNat (a.toNat - 16384))) }) ∧
    (16384 ≤ a.toNat → a.toNat < 32768 → s.bankCount ≤ s.currentBank.toNat → exec (.readbyte a) s =
      .next { s with response := some (.fail .bankUnmapped) }) ∧
    (32768 ≤ a.toNat → exec (.readbyte a) s =
      .next { s with fault := some .addressOutOfWindow, response := some (.faulted .addressOutOfWindow) })

/-- R276, R279, R61: a bus read of the low window is the byte of bank 0; of the high window the byte of the selected bank or
`Fail(BankUnmapped)`; and each is what READBYTE of the same address answers. -/
def Obligations.WindowReadsMatchReadbyte : Prop :=
  ∀ (a : BitVec 14) (s : State), s.fault = none →
    exec (.rdRom0 a) s = .next { s with response := some (.byte (s.bankByte 0 a.toNat)) } ∧
    (s.currentBank.toNat < s.bankCount → exec (.rdRomx a) s =
      .next { s with response := some (.byte (s.bankByte s.currentBank.toNat a.toNat)) }) ∧
    (s.bankCount ≤ s.currentBank.toNat → exec (.rdRomx a) s =
      .next { s with response := some (.fail .bankUnmapped) }) ∧
    exec (.rdRom0 a) s = exec (.readbyte (0b00#2 ++ a)) s ∧ exec (.rdRomx a) s = exec (.readbyte (0b01#2 ++ a)) s

/-- R312, R313: every bus access to an unmapped address faults `UnmappedAddress`, and a word that names such an address is
such an access. -/
def Obligations.UnmappedAccessFaults : Prop :=
  ∀ (s : State) (a : Addr) (v : Byte), s.fault = none →
    exec (.rdUnmapped a) s =
      .next { s with fault := some .unmappedAddress, response := some (.faulted .unmappedAddress) } ∧
    exec (.wrUnmapped a v) s =
      .next { s with fault := some .unmappedAddress, response := some (.faulted .unmappedAddress) } ∧
    (0x8000 ≤ a.toNat → a ∉ s.cfg.addresses → ∀ p,
      decode s.cfg (0x01#8 ++ a ++ 0x00#8) p = .ok (.rdUnmapped a) ∧
      decode s.cfg (0x02#8 ++ a ++ v) p = .ok (.wrUnmapped a v))

/-- R284: the bytes of a LOAD that answered a handle read back, through READBYTE in bank 0 and after GOTO in any bank,
after any later run that did not fault and in which no SETBANKCOUNT to the handle's bank or below succeeded (one whose
allocation the host refuses shrinks nothing, R260); and a second LOAD of the name fails and leaves the handle. -/
def Obligations.LoadedBytesReadBack : Prop :=
  ∀ (s t u : State) (f : Bool) (name : Name) (bytes : List Byte) (h : Handle) (txs : List Transaction),
    s.Inv → s.fault = none → exec (.load f name bytes) s = .next t → t.response = some (.handle h) →
    (∀ tx ∈ txs, ∀ n, decode s.cfg tx.word tx.payload = .ok (.setbankcount n) → tx.answers.alloc = true →
      h.bank.toNat < n) →
    performAll txs t = .next u → u.fault = none →
    h.length = bytes.length ∧
    (∀ i (hi : i < bytes.length),
      (h.bank = 0#16 → exec (.readbyte (BitVec.ofNat 16 (h.address + i))) u =
        .next { u with response := some (.byte bytes[i]) }) ∧
      (∃ v, exec (.gotoHandle h) u = .next v ∧ exec (.readbyte (BitVec.ofNat 16 (0x4000 + h.address + i))) v =
        .next { v with response := some (.byte bytes[i]) })) ∧
    (∀ f' bytes', exec (.load f' name bytes') u = .next { u with response := some (.fail .duplicateName) }) ∧
    u.handles.find name = some h

/-- R43: no transaction modifies or removes an entry of the handle table. -/
def Obligations.HandlesAreNeverChanged : Prop :=
  ∀ (txs : List Transaction) (s t : State) (name : Name) (h : Handle), performAll txs s = .next t →
    s.handles.find name = some h → t.handles.find name = some h

/-- R40-R43, R38: the only writers of the store's state and of the RTC fields. Of the model's own fields, `origins` (log 3)
has the writer of the bank count, and no instruction writes `cfg` (log 1), `pending` (log 7), `answers` (log 8) or `draws`
(log 6). -/
def Obligations.WritersOfStoreAndClock : Prop :=
  ∀ (i : Instr) (s t : State), exec i s = .next t →
    (t.bankCount ≠ s.bankCount ∨ t.origins ≠ s.origins → ∃ n, i = .setbankcount n) ∧
    (t.banks ≠ s.banks ∨ t.fill ≠ s.fill → (∃ n, i = .setbankcount n) ∨
      (∃ f name bytes, i = .load f name bytes) ∨ (∃ f name path, i = .loadfile f name path)) ∧
    (t.handles ≠ s.handles → (∃ f name bytes, i = .load f name bytes) ∨ (∃ f name path, i = .loadfile f name path)) ∧
    (t.currentBank ≠ s.currentBank → (∃ n, i = .setbank n) ∨ (∃ h, i = .gotoHandle h) ∨
      (∃ v, i = .wrBankHi v ∨ i = .wrBankLo v)) ∧
    (t.rtcFields ≠ s.rtcFields → i = .latch ∨ ∃ v, i = .wrRtcLatch v) ∧
    t.cfg = s.cfg ∧ t.pending = s.pending ∧ t.answers = s.answers ∧ t.draws = s.draws

/-! ### The whole machine -/

/-- R68: no read changes the state. A word whose OP is RD, READBYTE or LOOKUP and that does not fault changes nothing of
the block. The draw number, the latched answers and the response, which do change, are the model's own fields (log 6, log 8,
log 9). -/
def Obligations.NoReadChangesState : Prop :=
  ∀ (s t : State) (tx : Transaction), perform tx s = .next t → t.fault = none →
    fieldOp tx.word = 0x01#8 ∨ fieldOp tx.word = 0x45#8 ∨ fieldOp tx.word = 0x46#8 →
    t = { s.accept tx with response := t.response }

/-- R11: draws influence nothing but the bytes that are draws. Two states that differ in the draw number alone have next
states that differ in it, in the response of a read whose byte holds a draw, in the origin that SETBANKCOUNT records for
the banks it adds, and in nothing else. The draw number is the model's choice (log 6). -/
def Obligations.DrawsReachOnlyTheirReads : Prop :=
  ∀ (i : Instr) (s t : State) (d : Nat), exec i s = .next t →
    ∃ u, exec i { s with draws := d } = .next u ∧
      u = { t with draws := d, response := u.response, origins := u.origins } ∧
      (u.response ≠ t.response → i = .rdTac ∨ i = .rdJoyp ∨ i = .rdRtcLatch ∨ i = .rdBankHi ∨ i = .rdBankLo) ∧
      (u.origins ≠ t.origins → ∃ n, i = .setbankcount n)

/-- R370: the launch state, field by field, for every configuration, wall-clock sample and `oldDivider`. -/
def Obligations.LaunchStateIsAsTabled : Prop :=
  ∀ (c : Config) (w : WallTime) (x : BitVec 16) (s : State), s = State.launch c w x →
    s.IF = c.ifReset ∧ s.IE = 0x00#8 ∧ s.IME = false ∧ (∀ k, s.hasHandler k = false) ∧
    s.handlers.length = c.intKindCount ∧ s.svc = .idle ∧ s.divider = c.divReset ∧ s.counter = c.timaReset ∧
    s.modulo = c.tmaReset ∧ s.clockSpeed = c.tacSpeedReset ∧ s.enabled = c.tacEnabledReset ∧
    s.selectButtons = c.joypSelButtonsReset ∧ s.selectDPad = c.joypSelDPadReset ∧ s.buttons = 0xF#4 ∧ s.dPad = 0xF#4 ∧
    s.rtcFields = c.rtcDerive.derive w ∧ s.bankCount = c.defaultBankCount ∧
    (∀ b o, b < s.bankCount → o < bankSize → s.bankByte b o = Config.bankInitContent b o ∧ s.fillOf b = 0) ∧
    s.currentBank = 0#16 ∧ (∀ name, s.handles.find name = none) ∧ s.fault = none

/-- R372: at launch no kind is eligible whatever `IF_RESET` is, and a SERVICE answers NONE. -/
def Obligations.NoKindIsEligibleAtLaunch : Prop :=
  ∀ (c : Config) (w : WallTime) (x : BitVec 16) (k : Kind), (State.launch c w x).eligible k = false ∧
    exec .service (State.launch c w x) = .next { State.launch c w x with response := some (.service .NONE) }

/-- The launch state of a valid configuration meets the invariant of the state, which is the model's (log 3, log 11), and so
does `State.reset` (log 1, log 4, log 5). -/
def Obligations.LaunchMeetsTheInvariant : Prop :=
  (∀ (c : Config) (w : WallTime) (x : BitVec 16), c.Valid → (State.launch c w x).Inv) ∧ State.reset.Inv

/-- The invariant of the state, R46's bounds and the model's canonical forms (log 3, log 11) among it, is kept by every
step. -/
def Obligations.EveryStepKeepsTheInvariant : Prop :=
  ∀ (s t : State), s.Inv → step s = .next t → t.Inv
end

