-- ==== Sys2Proof/Laws/Encoding.lean ====
section
/-! SUPPORT. The transaction word and its three fields (30_encoding.md R90): each field is read back, the fields determine
the word, and masking works field by field. -/

namespace Sys2Proof

theorem mkWord_toNat (op : BitVec 8) (a : Addr) (d : Byte) :
    (mkWord op a d).toNat = op.toNat * 16777216 + a.toNat * 256 + d.toNat := by
  have h : (mkWord op a d).toNat = (op ++ a ++ d : BitVec (8 + 16 + 8)).toNat := rfl
  rw [h, BitVec.toNat_append, BitVec.toNat_append, ← Nat.shiftLeft_add_eq_or_of_lt a.isLt,
    ← Nat.shiftLeft_add_eq_or_of_lt d.isLt]
  simp only [Nat.shiftLeft_eq]
  omega

theorem fieldOp_toNat (w : Word) : (fieldOp w).toNat = w.toNat / 16777216 := by
  have := w.isLt
  simp [fieldOp, BitVec.extractLsb'_toNat, Nat.shiftRight_eq_div_pow]
  omega

theorem fieldA_toNat (w : Word) : (fieldA w).toNat = w.toNat / 256 % 65536 := by
  simp [fieldA, BitVec.extractLsb'_toNat, Nat.shiftRight_eq_div_pow]

theorem fieldD_toNat (w : Word) : (fieldD w).toNat = w.toNat % 256 := by
  simp [fieldD, BitVec.extractLsb'_toNat]

theorem fieldOp_mkWord (op : BitVec 8) (a : Addr) (d : Byte) : fieldOp (mkWord op a d) = op := by
  have := op.isLt; have := a.isLt; have := d.isLt
  apply BitVec.eq_of_toNat_eq
  rw [fieldOp_toNat, mkWord_toNat]
  omega

theorem fieldA_mkWord (op : BitVec 8) (a : Addr) (d : Byte) : fieldA (mkWord op a d) = a := by
  have := op.isLt; have := a.isLt; have := d.isLt
  apply BitVec.eq_of_toNat_eq
  rw [fieldA_toNat, mkWord_toNat]
  omega

theorem fieldD_mkWord (op : BitVec 8) (a : Addr) (d : Byte) : fieldD (mkWord op a d) = d := by
  have := op.isLt; have := a.isLt; have := d.isLt
  apply BitVec.eq_of_toNat_eq
  rw [fieldD_toNat, mkWord_toNat]
  omega

theorem mkWord_fields (w : Word) : mkWord (fieldOp w) (fieldA w) (fieldD w) = w := by
  have := w.isLt
  apply BitVec.eq_of_toNat_eq
  rw [mkWord_toNat, fieldOp_toNat, fieldA_toNat, fieldD_toNat]
  omega

theorem mkWord_inj {op o' : BitVec 8} {a a' : Addr} {d d' : Byte} (h : mkWord op a d = mkWord o' a' d') :
    op = o' ∧ a = a' ∧ d = d' := by
  refine ⟨?_, ?_, ?_⟩
  · rw [← fieldOp_mkWord op a d, h, fieldOp_mkWord]
  · rw [← fieldA_mkWord op a d, h, fieldA_mkWord]
  · rw [← fieldD_mkWord op a d, h, fieldD_mkWord]

theorem mkWord_and (op o' : BitVec 8) (a a' : Addr) (d d' : Byte) :
    mkWord op a d &&& mkWord o' a' d' = mkWord (op &&& o') (a &&& a') (d &&& d') := by
  have h : (op ++ a ++ d : BitVec (8 + 16 + 8)) &&& (o' ++ a' ++ d') = (op &&& o') ++ (a &&& a') ++ (d &&& d') := by
    rw [BitVec.and_append, BitVec.and_append]
  exact h

/-! ### The address decode (R62) -/

/-- Under valid parameters each register address decodes to its register. -/
theorem decodeAddr_register {c : Config} (hc : c.Valid) :
    decodeAddr c c.addrIf = .IF ∧ decodeAddr c c.addrIe = .IE ∧ decodeAddr c c.addrDiv = .div ∧
    decodeAddr c c.addrTima = .tima ∧ decodeAddr c c.addrTma = .tma ∧ decodeAddr c c.addrTac = .tac ∧
    decodeAddr c c.addrJoyp = .joyp ∧ decodeAddr c c.addrRtcS = .rtcS ∧ decodeAddr c c.addrRtcM = .rtcM ∧
    decodeAddr c c.addrRtcH = .rtcH ∧ decodeAddr c c.addrRtcDl = .rtcDl ∧ decodeAddr c c.addrRtcDh = .rtcDh ∧
    decodeAddr c c.addrRtcLatch = .rtcLatch ∧ decodeAddr c c.addrBankHi = .bankHi ∧
    decodeAddr c c.addrBankLo = .bankLo := by
  obtain ⟨_, _, _, _, _, _, _, _, hn, ha, _⟩ := hc
  have k1 : ∀ a ∈ c.addresses, ¬ a.toNat ≤ 0x3FFF := fun a h => by have := ha a h; omega
  have k2 : ∀ a ∈ c.addresses, ¬ a.toNat ≤ 0x7FFF := fun a h => by have := ha a h; omega
  rw [← List.nodup_reverse] at hn
  simp only [Config.addresses, List.forall_mem_cons] at k1 k2
  simp [Config.addresses] at hn
  obtain ⟨n1, n2, n3, n4, n5, n6, n7, n8, n9, n10, n11, n12, n13, n14⟩ := hn
  simp only [decodeAddr, k1, k2, if_false]
  simp [*]

theorem decodeAddr_unmapped {c : Config} {a : Addr} (h : 0x8000 ≤ a.toNat) (hn : a ∉ c.addresses) :
    decodeAddr c a = .unmapped := by
  simp [Config.addresses] at hn
  simp [decodeAddr, hn, show ¬ a.toNat ≤ 16383 by omega, show ¬ a.toNat ≤ 32767 by omega]

theorem lowWindow_toNat (a : BitVec 14) : (0b00#2 ++ a : Addr).toNat = a.toNat := by
  have h : (0b00#2 ++ a : Addr).toNat = (0b00#2 ++ a : BitVec (2 + 14)).toNat := rfl
  rw [h, BitVec.toNat_append]
  simp

theorem highWindow_toNat (a : BitVec 14) : (0b01#2 ++ a : Addr).toNat = 16384 + a.toNat := by
  have h : (0b01#2 ++ a : Addr).toNat = (0b01#2 ++ a : BitVec (2 + 14)).toNat := rfl
  rw [h, BitVec.toNat_append, ← Nat.shiftLeft_add_eq_or_of_lt a.isLt]
  simp [Nat.shiftLeft_eq]

theorem lowWindow_setWidth (a : BitVec 14) : (0b00#2 ++ a : Addr).setWidth 14 = a := by
  have := a.isLt
  apply BitVec.eq_of_toNat_eq
  rw [BitVec.toNat_setWidth, lowWindow_toNat]
  omega

theorem highWindow_setWidth (a : BitVec 14) : (0b01#2 ++ a : Addr).setWidth 14 = a := by
  have := a.isLt
  apply BitVec.eq_of_toNat_eq
  rw [BitVec.toNat_setWidth, highWindow_toNat]
  omega

theorem lowWindow_addr (a : Addr) (h : a.toNat ≤ 16383) : (0b00#2 ++ a.setWidth 14 : Addr) = a := by
  apply BitVec.eq_of_toNat_eq
  rw [lowWindow_toNat, BitVec.toNat_setWidth]
  omega

theorem highWindow_addr (a : Addr) (h : ¬ a.toNat ≤ 16383) (h' : a.toNat ≤ 32767) :
    (0b01#2 ++ a.setWidth 14 : Addr) = a := by
  apply BitVec.eq_of_toNat_eq
  rw [highWindow_toNat, BitVec.toNat_setWidth]
  omega

theorem decodeAddr_lowWindow (c : Config) (a : BitVec 14) : decodeAddr c (0b00#2 ++ a) = .rom0 := by
  have := a.isLt
  simp [decodeAddr, lowWindow_toNat, show a.toNat ≤ 16383 by omega]

theorem decodeAddr_highWindow (c : Config) (a : BitVec 14) : decodeAddr c (0b01#2 ++ a) = .romx := by
  have := a.isLt
  simp [decodeAddr, highWindow_toNat, show ¬ 16384 + a.toNat ≤ 16383 by omega, show 16384 + a.toNat ≤ 32767 by omega]

/-- What an address is, once its target is known. -/
theorem decodeAddr_inv (c : Config) (a : Addr) :
    match decodeAddr c a with
    | .rom0 => a.toNat ≤ 0x3FFF
    | .romx => 0x3FFF < a.toNat ∧ a.toNat ≤ 0x7FFF
    | .IF => a = c.addrIf
    | .IE => a = c.addrIe
    | .div => a = c.addrDiv
    | .tima => a = c.addrTima
    | .tma => a = c.addrTma
    | .tac => a = c.addrTac
    | .joyp => a = c.addrJoyp
    | .rtcS => a = c.addrRtcS
    | .rtcM => a = c.addrRtcM
    | .rtcH => a = c.addrRtcH
    | .rtcDl => a = c.addrRtcDl
    | .rtcDh => a = c.addrRtcDh
    | .rtcLatch => a = c.addrRtcLatch
    | .bankHi => a = c.addrBankHi
    | .bankLo => a = c.addrBankLo
    | .unmapped => 0x7FFF < a.toNat ∧ a ∉ c.addresses := by
  unfold decodeAddr
  by_cases h0 : a.toNat ≤ 0x3FFF
  · rw [if_pos h0]; exact h0
  rw [if_neg h0]
  by_cases h1 : a.toNat ≤ 0x7FFF
  · rw [if_pos h1]; exact ⟨by omega, h1⟩
  rw [if_neg h1]
  by_cases h2 : a = c.addrIf
  · rw [if_pos h2]; exact h2
  rw [if_neg h2]
  by_cases h3 : a = c.addrIe
  · rw [if_pos h3]; exact h3
  rw [if_neg h3]
  by_cases h4 : a = c.addrDiv
  · rw [if_pos h4]; exact h4
  rw [if_neg h4]
  by_cases h5 : a = c.addrTima
  · rw [if_pos h5]; exact h5
  rw [if_neg h5]
  by_cases h6 : a = c.addrTma
  · rw [if_pos h6]; exact h6
  rw [if_neg h6]
  by_cases h7 : a = c.addrTac
  · rw [if_pos h7]; exact h7
  rw [if_neg h7]
  by_cases h8 : a = c.addrJoyp
  · rw [if_pos h8]; exact h8
  rw [if_neg h8]
  by_cases h9 : a = c.addrRtcS
  · rw [if_pos h9]; exact h9
  rw [if_neg h9]
  by_cases h10 : a = c.addrRtcM
  · rw [if_pos h10]; exact h10
  rw [if_neg h10]
  by_cases h11 : a = c.addrRtcH
  · rw [if_pos h11]; exact h11
  rw [if_neg h11]
  by_cases h12 : a = c.addrRtcDl
  · rw [if_pos h12]; exact h12
  rw [if_neg h12]
  by_cases h13 : a = c.addrRtcDh
  · rw [if_pos h13]; exact h13
  rw [if_neg h13]
  by_cases h14 : a = c.addrRtcLatch
  · rw [if_pos h14]; exact h14
  rw [if_neg h14]
  by_cases h15 : a = c.addrBankHi
  · rw [if_pos h15]; exact h15
  rw [if_neg h15]
  by_cases h16 : a = c.addrBankLo
  · rw [if_pos h16]; exact h16
  rw [if_neg h16]
  exact ⟨by omega, by simp [Config.addresses, *]⟩

/-! ### The decoder on encoded words, and its inversion (R96) -/

theorem decode_rdWord (c : Config) (a : Addr) (p : Payload) : decode c (rdWord a) p = .ok (decodeRead c a) := by
  simp [decode, rdWord, fieldOp_mkWord, fieldA_mkWord, fieldD_mkWord, checked]

theorem decode_wrWord (c : Config) (a : Addr) (v : Byte) (p : Payload) :
    decode c (wrWord a v) p = .ok (decodeWrite c a v) := by
  simp [decode, wrWord, fieldOp_mkWord, fieldA_mkWord, fieldD_mkWord]

theorem dK_fields : ∀ k : Kind, kindOf (dK k) = k ∧ (dK k).extractLsb' 3 5 = 0#5 := by decide

theorem dKF_fields : ∀ (k : Kind) (f : Bool),
    kindOf (dKF k f) = k ∧ (dKF k f).extractLsb' 3 4 = 0#4 ∧ (dKF k f)[7] = f := by decide

theorem dF_fields : ∀ f : Bool, (dF f)[0] = f ∧ (dF f).extractLsb' 1 7 = 0#7 := by decide

theorem dJ_fields : ∀ (g : Group) (l : Line),
    groupOf (dJ g l) = g ∧ lineOf (dJ g l) = l ∧ (dJ g l).extractLsb' 3 5 = 0#5 := by
  rintro (_ | _) <;> decide

theorem dK_of_fields : ∀ d : Byte, d.extractLsb' 3 5 = 0#5 → dK (kindOf d) = d := by decide

theorem dKF_of_fields : ∀ d : Byte, d.extractLsb' 3 4 = 0#4 → dKF (kindOf d) (d.getLsbD 7) = d := by decide

theorem dF_of_fields : ∀ d : Byte, d.extractLsb' 1 7 = 0#7 → dF (d.getLsbD 0) = d := by decide

theorem dJ_of_fields : ∀ d : Byte, d.extractLsb' 3 5 = 0#5 → dJ (groupOf d) (lineOf d) = d := by decide

theorem dK_toNat : ∀ k : Kind, (dK k).toNat = k.val := by decide

theorem dKF_toNat : ∀ (k : Kind) (f : Bool), (dKF k f).toNat = (if f then 1 else 0) * 128 + k.val := by decide

theorem dF_toNat : ∀ f : Bool, (dF f).toNat = (if f then 1 else 0) := by decide

theorem dJ_toNat : ∀ (g : Group) (l : Line), (dJ g l).toNat = (if g = .dPad then 1 else 0) * 4 + l.val := by
  rintro (_ | _) <;> decide

/-- `Decodes c w p i`: the fields of `w` that make it decode to `i`, one constructor for each OP value. -/
inductive Decodes (c : Config) (w : Word) (p : Payload) : Instr → Prop
  | rd (ho : fieldOp w = 0x01#8) (hd : fieldD w = 0#8) : Decodes c w p (decodeRead c (fieldA w))
  | wr (ho : fieldOp w = 0x02#8) : Decodes c w p (decodeWrite c (fieldA w) (fieldD w))
  | tick (ho : fieldOp w = 0x03#8) (ha : fieldA w = 0#16) (hd : fieldD w = 0#8) : Decodes c w p .tick
  | req (ho : fieldOp w = 0x10#8) (ha : fieldA w = 0#16) (hd : (fieldD w).extractLsb' 3 5 = 0#5) :
      Decodes c w p (.req (kindOf (fieldD w)))
  | cancel (ho : fieldOp w = 0x11#8) (ha : fieldA w = 0#16) (hd : (fieldD w).extractLsb' 3 5 = 0#5) :
      Decodes c w p (.cancel (kindOf (fieldD w)))
  | setie (ho : fieldOp w = 0x12#8) (ha : fieldA w = 0#16) (hd : (fieldD w).extractLsb' 3 4 = 0#4) :
      Decodes c w p (.setie (kindOf (fieldD w)) ((fieldD w).getLsbD 7))
  | setime (ho : fieldOp w = 0x13#8) (ha : fieldA w = 0#16) (hd : (fieldD w).extractLsb' 1 7 = 0#7) :
      Decodes c w p (.setime ((fieldD w).getLsbD 0))
  | service (ho : fieldOp w = 0x14#8) (ha : fieldA w = 0#16) (hd : fieldD w = 0#8) : Decodes c w p .service
  | reti (ho : fieldOp w = 0x15#8) (ha : fieldA w = 0#16) (hd : fieldD w = 0#8) : Decodes c w p .reti
  | sethandler (ho : fieldOp w = 0x16#8) (ha : fieldA w = 0#16) (hd : (fieldD w).extractLsb' 3 4 = 0#4) :
      Decodes c w p (.sethandler (kindOf (fieldD w)) ((fieldD w).getLsbD 7))
  | hret (ho : fieldOp w = 0x17#8) (ha : fieldA w = 0#16) (hd : (fieldD w).extractLsb' 1 7 = 0#7) :
      Decodes c w p (.hret ((fieldD w).getLsbD 0))
  | press (ho : fieldOp w = 0x20#8) (ha : fieldA w = 0#16) (hd : (fieldD w).extractLsb' 3 5 = 0#5) :
      Decodes c w p (.press (groupOf (fieldD w)) (lineOf (fieldD w)))
  | release (ho : fieldOp w = 0x21#8) (ha : fieldA w = 0#16) (hd : (fieldD w).extractLsb' 3 5 = 0#5) :
      Decodes c w p (.release (groupOf (fieldD w)) (lineOf (fieldD w)))
  | latch (ho : fieldOp w = 0x30#8) (ha : fieldA w = 0#16) (hd : fieldD w = 0#8) : Decodes c w p .latch
  | setbankcount (ho : fieldOp w = 0x40#8) (hd : fieldD w = 0#8) : Decodes c w p (.setbankcount ((fieldA w).toNat + 1))
  | setbank (ho : fieldOp w = 0x41#8) (hd : fieldD w = 0#8) : Decodes c w p (.setbank (fieldA w))
  | load (ho : fieldOp w = 0x42#8) (ha : fieldA w = 0#16) (hd : (fieldD w).extractLsb' 1 7 = 0#7) :
      Decodes c w p (.load ((fieldD w).getLsbD 0) p.name p.bytes)
  | loadfile (ho : fieldOp w = 0x43#8) (ha : fieldA w = 0#16) (hd : (fieldD w).extractLsb' 1 7 = 0#7) :
      Decodes c w p (.loadfile ((fieldD w).getLsbD 0) p.name p.path)
  | gotoHandle (ho : fieldOp w = 0x44#8) (ha : fieldA w = 0#16) (hd : fieldD w = 0#8) :
      Decodes c w p (.gotoHandle p.handle)
  | readbyte (ho : fieldOp w = 0x45#8) (hd : fieldD w = 0#8) : Decodes c w p (.readbyte (fieldA w))
  | lookup (ho : fieldOp w = 0x46#8) (ha : fieldA w = 0#16) (hd : fieldD w = 0#8) : Decodes c w p (.lookup p.name)

theorem checked_eq_ok {b : Bool} {i j : Instr} : checked b i = .ok j ↔ b = true ∧ j = i := by
  cases b <;> simp [checked, eq_comm]

/-- The inversion of the decoder. -/
theorem decode_inv {c : Config} {w : Word} {p : Payload} {i : Instr} (h : decode c w p = .ok i) : Decodes c w p i := by
  unfold decode at h
  extract_lets a d noA noD d73 d63 d71 at h
  have cA : noA = true → a = 0#16 := decide_eq_true_iff.1
  have cD : noD = true → d = 0#8 := decide_eq_true_iff.1
  have c73 : d73 = true → d.extractLsb' 3 5 = 0#5 := decide_eq_true_iff.1
  have c63 : d63 = true → d.extractLsb' 3 4 = 0#4 := decide_eq_true_iff.1
  have c71 : d71 = true → d.extractLsb' 1 7 = 0#7 := decide_eq_true_iff.1
  clear_value noA noD d73 d63 d71
  by_cases e : fieldOp w = 0x01#8
  · rw [if_pos e] at h
    obtain ⟨b, rfl⟩ := checked_eq_ok.1 h; exact .rd e (cD b)
  rw [if_neg e] at h; clear e
  by_cases e : fieldOp w = 0x02#8
  · rw [if_pos e] at h
    cases h; exact .wr e
  rw [if_neg e] at h; clear e
  by_cases e : fieldOp w = 0x03#8
  · rw [if_pos e] at h
    obtain ⟨b, rfl⟩ := checked_eq_ok.1 h; exact .tick e (cA (Bool.and_eq_true_iff.1 b).1) (cD (Bool.and_eq_true_iff.1 b).2)
  rw [if_neg e] at h; clear e
  by_cases e : fieldOp w = 0x10#8
  · rw [if_pos e] at h
    obtain ⟨b, rfl⟩ := checked_eq_ok.1 h; exact .req e (cA (Bool.and_eq_true_iff.1 b).1) (c73 (Bool.and_eq_true_iff.1 b).2)
  rw [if_neg e] at h; clear e
  by_cases e : fieldOp w = 0x11#8
  · rw [if_pos e] at h
    obtain ⟨b, rfl⟩ := checked_eq_ok.1 h; exact .cancel e (cA (Bool.and_eq_true_iff.1 b).1) (c73 (Bool.and_eq_true_iff.1 b).2)
  rw [if_neg e] at h; clear e
  by_cases e : fieldOp w = 0x12#8
  · rw [if_pos e] at h
    obtain ⟨b, rfl⟩ := checked_eq_ok.1 h; exact .setie e (cA (Bool.and_eq_true_iff.1 b).1) (c63 (Bool.and_eq_true_iff.1 b).2)
  rw [if_neg e] at h; clear e
  by_cases e : fieldOp w = 0x13#8
  · rw [if_pos e] at h
    obtain ⟨b, rfl⟩ := checked_eq_ok.1 h; exact .setime e (cA (Bool.and_eq_true_iff.1 b).1) (c71 (Bool.and_eq_true_iff.1 b).2)
  rw [if_neg e] at h; clear e
  by_cases e : fieldOp w = 0x14#8
  · rw [if_pos e] at h
    obtain ⟨b, rfl⟩ := checked_eq_ok.1 h; exact .service e (cA (Bool.and_eq_true_iff.1 b).1) (cD (Bool.and_eq_true_iff.1 b).2)
  rw [if_neg e] at h; clear e
  by_cases e : fieldOp w = 0x15#8
  · rw [if_pos e] at h
    obtain ⟨b, rfl⟩ := checked_eq_ok.1 h; exact .reti e (cA (Bool.and_eq_true_iff.1 b).1) (cD (Bool.and_eq_true_iff.1 b).2)
  rw [if_neg e] at h; clear e
  by_cases e : fieldOp w = 0x16#8
  · rw [if_pos e] at h
    obtain ⟨b, rfl⟩ := checked_eq_ok.1 h; exact .sethandler e (cA (Bool.and_eq_true_iff.1 b).1) (c63 (Bool.and_eq_true_iff.1 b).2)
  rw [if_neg e] at h; clear e
  by_cases e : fieldOp w = 0x17#8
  · rw [if_pos e] at h
    obtain ⟨b, rfl⟩ := checked_eq_ok.1 h; exact .hret e (cA (Bool.and_eq_true_iff.1 b).1) (c71 (Bool.and_eq_true_iff.1 b).2)
  rw [if_neg e] at h; clear e
  by_cases e : fieldOp w = 0x20#8
  · rw [if_pos e] at h
    obtain ⟨b, rfl⟩ := checked_eq_ok.1 h; exact .press e (cA (Bool.and_eq_true_iff.1 b).1) (c73 (Bool.and_eq_true_iff.1 b).2)
  rw [if_neg e] at h; clear e
  by_cases e : fieldOp w = 0x21#8
  · rw [if_pos e] at h
    obtain ⟨b, rfl⟩ := checked_eq_ok.1 h; exact .release e (cA (Bool.and_eq_true_iff.1 b).1) (c73 (Bool.and_eq_true_iff.1 b).2)
  rw [if_neg e] at h; clear e
  by_cases e : fieldOp w = 0x30#8
  · rw [if_pos e] at h
    obtain ⟨b, rfl⟩ := checked_eq_ok.1 h; exact .latch e (cA (Bool.and_eq_true_iff.1 b).1) (cD (Bool.and_eq_true_iff.1 b).2)
  rw [if_neg e] at h; clear e
  by_cases e : fieldOp w = 0x40#8
  · rw [if_pos e] at h
    obtain ⟨b, rfl⟩ := checked_eq_ok.1 h; exact .setbankcount e (cD b)
  rw [if_neg e] at h; clear e
  by_cases e : fieldOp w = 0x41#8
  · rw [if_pos e] at h
    obtain ⟨b, rfl⟩ := checked_eq_ok.1 h; exact .setbank e (cD b)
  rw [if_neg e] at h; clear e
  by_cases e : fieldOp w = 0x42#8
  · rw [if_pos e] at h
    obtain ⟨b, rfl⟩ := checked_eq_ok.1 h; exact .load e (cA (Bool.and_eq_true_iff.1 b).1) (c71 (Bool.and_eq_true_iff.1 b).2)
  rw [if_neg e] at h; clear e
  by_cases e : fieldOp w = 0x43#8
  · rw [if_pos e] at h
    obtain ⟨b, rfl⟩ := checked_eq_ok.1 h; exact .loadfile e (cA (Bool.and_eq_true_iff.1 b).1) (c71 (Bool.and_eq_true_iff.1 b).2)
  rw [if_neg e] at h; clear e
  by_cases e : fieldOp w = 0x44#8
  · rw [if_pos e] at h
    obtain ⟨b, rfl⟩ := checked_eq_ok.1 h; exact .gotoHandle e (cA (Bool.and_eq_true_iff.1 b).1) (cD (Bool.and_eq_true_iff.1 b).2)
  rw [if_neg e] at h; clear e
  by_cases e : fieldOp w = 0x45#8
  · rw [if_pos e] at h
    obtain ⟨b, rfl⟩ := checked_eq_ok.1 h; exact .readbyte e (cD b)
  rw [if_neg e] at h; clear e
  by_cases e : fieldOp w = 0x46#8
  · rw [if_pos e] at h
    obtain ⟨b, rfl⟩ := checked_eq_ok.1 h; exact .lookup e (cA (Bool.and_eq_true_iff.1 b).1) (cD (Bool.and_eq_true_iff.1 b).2)
  rw [if_neg e] at h; clear e
  cases h

/-- RD decodes to a well-formed instruction that encodes to the word. -/
theorem decodeRead_wellFormed (c : Config) (a : Addr) :
    (decodeRead c a).wellFormed c = true ∧ encode c (decodeRead c a) = rdWord a := by
  have h := decodeAddr_inv c a
  unfold decodeRead
  cases hd : decodeAddr c a <;> rw [hd] at h <;> dsimp only at h ⊢
  case unmapped => exact ⟨by simp [Instr.wellFormed, Config.unmapped, h]; omega, rfl⟩
  case rom0 => exact ⟨rfl, by rw [encode, lowWindow_addr a h]⟩
  case romx => exact ⟨rfl, by rw [encode, highWindow_addr a (by omega) h.2]⟩
  all_goals exact ⟨rfl, by rw [h]; rfl⟩

/-- WR decodes to a well-formed instruction that encodes to the word. -/
theorem decodeWrite_wellFormed (c : Config) (a : Addr) (v : Byte) :
    (decodeWrite c a v).wellFormed c = true ∧ encode c (decodeWrite c a v) = wrWord a v := by
  have h := decodeAddr_inv c a
  unfold decodeWrite
  cases hd : decodeAddr c a <;> rw [hd] at h <;> dsimp only at h ⊢
  case unmapped => exact ⟨by simp [Instr.wellFormed, Config.unmapped, h]; omega, rfl⟩
  case rom0 => exact ⟨rfl, by rw [encode, lowWindow_addr a h]⟩
  case romx => exact ⟨rfl, by rw [encode, highWindow_addr a (by omega) h.2]⟩
  all_goals exact ⟨rfl, by rw [h]; rfl⟩

/-! ### The rows of the opcode map, field by field -/

/-- A row whose mask leaves A free. -/
theorem row_address (w : Word) (op : BitVec 8) (m : Byte) :
    w &&& mkWord 0xFF#8 0#16 m = mkWord op 0#16 0#8 ↔ fieldOp w = op ∧ fieldD w &&& m = 0#8 := by
  have e : ∀ x : BitVec 8, x &&& 0xFF#8 = x := fun _ => BitVec.and_allOnes
  conv => lhs; lhs; rw [← mkWord_fields w]
  rw [mkWord_and, e, BitVec.and_zero]
  exact ⟨fun h => ⟨(mkWord_inj h).1, (mkWord_inj h).2.2⟩, fun h => by rw [h.1, h.2]⟩

/-- A row whose mask fixes A at 0. -/
theorem row_noAddress (w : Word) (op : BitVec 8) (m : Byte) :
    w &&& mkWord 0xFF#8 0xFFFF#16 m = mkWord op 0#16 0#8 ↔
      fieldOp w = op ∧ fieldA w = 0#16 ∧ fieldD w &&& m = 0#8 := by
  have e : ∀ x : BitVec 8, x &&& 0xFF#8 = x := fun _ => BitVec.and_allOnes
  have e' : ∀ x : BitVec 16, x &&& 0xFFFF#16 = x := fun _ => BitVec.and_allOnes
  conv => lhs; lhs; rw [← mkWord_fields w]
  rw [mkWord_and, e, e']
  exact ⟨fun h => mkWord_inj h, fun h => by rw [h.1, h.2.1, h.2.2]⟩

theorem mask_all : ∀ d : Byte, d &&& 0xFF#8 = 0#8 ↔ d = 0#8 := by decide

theorem mask_kind : ∀ d : Byte, d &&& 0xF8#8 = 0#8 ↔ d.extractLsb' 3 5 = 0#5 := by decide

theorem mask_kindFlag : ∀ d : Byte, d &&& 0x78#8 = 0#8 ↔ d.extractLsb' 3 4 = 0#4 := by decide

theorem mask_flag : ∀ d : Byte, d &&& 0xFE#8 = 0#8 ↔ d.extractLsb' 1 7 = 0#7 := by decide

/-- Instantiation T meets the constraints of R7. -/
theorem instT_valid : Config.instT.Valid := by
  refine ⟨by decide, by decide, by decide, by decide, by decide, by decide, by decide, by decide, ?_, ?_, by decide, ?_⟩
  · simp [Config.addresses, Config.instT]
  · simp [Config.addresses, Config.instT]
  · show 4 ≤ 65536
    omega

end Sys2Proof
end

