-- ==== Sys2Proof/Laws/Flags.lean ====
section
/-! SUPPORT. The bits of a flag register after one is set or cleared, the lowest requesting kind, and the falling edge. -/

namespace Sys2Proof.Machine

theorem getLsbD_setBit {n : Nat} (v : BitVec n) (i j : Nat) (b : Bool) (hi : i < n) :
    (setBit v i b).getLsbD j = if j = i then b else v.getLsbD j := by
  cases b <;> by_cases h : j = i <;> simp [setBit, h, hi]
  · intro hv
    exact ⟨BitVec.lt_of_getLsbD hv, fun e => h e.symm⟩
  · intro e
    exact absurd e.symm h

theorem mem_kindsInOrder (k : Kind) : k ∈ kindsInOrder := by revert k; decide

theorem requesting_iff (s : State) (k : Kind) :
    s.requesting k = true ↔ k.val < s.cfg.intKindCount ∧ s.IF.getLsbD k.val = true ∧ s.IE.getLsbD k.val = true := by
  simp [State.requesting, and_assoc]

/-- What `min E` of R126 is: a requesting kind with none below it. -/
theorem lowestRequesting_eq_some_iff (s : State) (k : Kind) :
    s.lowestRequesting = some k ↔ s.requesting k = true ∧ ∀ j : Kind, j.val < k.val → s.requesting j = false := by
  unfold State.lowestRequesting kindsInOrder
  generalize s.requesting = p
  constructor
  · intro h
    refine ⟨by simpa using List.find?_some h, fun j hj => ?_⟩
    simp only [List.find?_cons] at h
    fin_cases k <;> fin_cases j <;> simp at hj <;> revert h <;> (repeat' split) <;> simp_all
  · rintro ⟨hk, hlt⟩
    simp only [List.find?_cons]
    fin_cases k <;> simp_all

theorem lowestRequesting_eq_none_iff (s : State) : s.lowestRequesting = none ↔ ∀ k, s.requesting k = false := by
  simp only [State.lowestRequesting, List.find?_eq_none, Bool.not_eq_true]
  exact ⟨fun h k => h k (mem_kindsInOrder k), fun h k _ => h k⟩

theorem timerBit_le (speed : BitVec 2) : timerBit speed ≤ 9 := by revert speed; decide

/-- R169: bit `b` falls on an increment exactly when bits `b..0` were all 1. -/
theorem fallingEdge_succ_iff (d : BitVec 16) (b : Nat) (hb : b ≤ 9) :
    fallingEdge d (d + 1#16) b = true ↔ d.toNat % 2 ^ (b + 1) = 2 ^ (b + 1) - 1 := by
  have hd := d.isLt
  simp only [fallingEdge, BitVec.getLsbD, Nat.testBit_eq_decide_div_mod_eq, BitVec.toNat_add, BitVec.toNat_ofNat,
    Bool.and_eq_true, decide_eq_true_eq, Bool.not_eq_true', decide_eq_false_iff_not]
  interval_cases b <;> norm_num <;> omega

end Sys2Proof.Machine
end

