-- ==== Sys2Proof/Laws/Handles.lean ====
section
/-! SUPPORT. The laws of the handle table: `nameLt` is a strict total order, a lookup after an insertion, and that an
insertion keeps the canonical form. -/

namespace Sys2Proof.Machine

theorem nameLt_irrefl (a : Name) : nameLt a a = false := by
  induction a with
  | nil => rfl
  | cons x xs ih => simp [nameLt, ih]

theorem nameLt_trans {a b c : Name} (h1 : nameLt a b = true) (h2 : nameLt b c = true) : nameLt a c = true := by
  induction a generalizing b c with
  | nil =>
    cases b with
    | nil => simp [nameLt] at h1
    | cons y ys => cases c with
      | nil => simp [nameLt] at h2
      | cons z zs => rfl
  | cons x xs ih =>
    cases b with
    | nil => simp [nameLt] at h1
    | cons y ys =>
      cases c with
      | nil => simp [nameLt] at h2
      | cons z zs =>
        simp only [nameLt, Bool.or_eq_true, Bool.and_eq_true, decide_eq_true_eq] at *
        rcases h1 with h1 | ⟨rfl, h1⟩
        · rcases h2 with h2 | ⟨rfl, h2⟩
          · exact .inl (by omega)
          · exact .inl h1
        · rcases h2 with h2 | ⟨rfl, h2⟩
          · exact .inl h2
          · exact .inr ⟨rfl, ih h1 h2⟩

theorem nameLt_of_not {a b : Name} (hne : b ≠ a) (h : nameLt a b = false) : nameLt b a = true := by
  induction a generalizing b with
  | nil =>
    cases b with
    | nil => exact absurd rfl hne
    | cons y ys => simp [nameLt] at h
  | cons x xs ih =>
    cases b with
    | nil => rfl
    | cons y ys =>
      simp only [nameLt, Bool.or_eq_false_iff, Bool.and_eq_false_iff, decide_eq_false_iff_not, Bool.or_eq_true,
        Bool.and_eq_true, decide_eq_true_eq] at *
      by_cases he : y = x
      · subst he
        rcases h.2 with h' | h'
        · exact absurd rfl h'
        · exact .inr ⟨rfl, ih (fun e => hne (by rw [e])) h'⟩
      · have hn : y.toNat ≠ x.toNat := fun e => he (Char.toNat_inj.1 e)
        exact .inl (by omega)

theorem find_insert_self (t : HandleTable) (name : Name) (h : Handle) : (t.insert name h).find name = some h := by
  induction t with
  | nil => simp [HandleTable.insert, HandleTable.find]
  | cons e rest ih =>
    obtain ⟨n, x⟩ := e
    by_cases hn : n = name
    · simp [HandleTable.insert, HandleTable.find, hn]
    · by_cases hlt : nameLt name n <;> simp [HandleTable.insert, HandleTable.find, hn, hlt, ih]

theorem find_insert_ne (t : HandleTable) (name other : Name) (h : Handle) (hne : other ≠ name) :
    (t.insert name h).find other = t.find other := by
  induction t with
  | nil => simp [HandleTable.insert, HandleTable.find, Ne.symm hne]
  | cons e rest ih =>
    obtain ⟨n, x⟩ := e
    by_cases hn : n = name
    · subst hn; simp [HandleTable.insert, HandleTable.find, Ne.symm hne]
    · by_cases hlt : nameLt name n <;> simp [HandleTable.insert, HandleTable.find, hn, hlt, ih, Ne.symm hne]

theorem mem_insert {t : HandleTable} {name : Name} {h : Handle} {e : Name × Handle} (he : e ∈ t.insert name h) :
    e = (name, h) ∨ e ∈ t := by
  induction t with
  | nil => simpa [HandleTable.insert] using he
  | cons d rest ih =>
    obtain ⟨n, x⟩ := d
    by_cases hn : n = name
    · simp [HandleTable.insert, hn] at he
      rcases he with he | he
      · exact .inl he
      · exact .inr (List.mem_cons_of_mem _ he)
    · by_cases hlt : nameLt name n
      · simpa [HandleTable.insert, hn, hlt] using he
      · simp [HandleTable.insert, hn, hlt] at he
        rcases he with he | he
        · exact .inr (by simp [he])
        · rcases ih he with h' | h'
          · exact .inl h'
          · exact .inr (List.mem_cons_of_mem _ h')

/-- An insertion keeps the canonical form. -/
theorem insert_wf {t : HandleTable} (ht : t.wf) (name : Name) (h : Handle) : (t.insert name h).wf := by
  induction t with
  | nil => simp [HandleTable.insert, HandleTable.wf]
  | cons e rest ih =>
    obtain ⟨n, x⟩ := e
    obtain ⟨h1, h2⟩ := List.pairwise_cons.1 ht
    by_cases hn : n = name
    · subst hn
      simpa [HandleTable.insert, HandleTable.wf] using ⟨fun a b hb => h1 (a, b) hb, h2⟩
    · by_cases hlt : nameLt name n
      · simp only [HandleTable.insert, hn, hlt, if_false, if_true, HandleTable.wf]
        refine List.pairwise_cons.2 ⟨fun d hd => ?_, ht⟩
        rcases List.mem_cons.1 hd with rfl | hd
        · exact hlt
        · exact nameLt_trans hlt (h1 d hd)
      · simp only [HandleTable.insert, hn, hlt, if_false, HandleTable.wf]
        refine List.pairwise_cons.2 ⟨fun d hd => ?_, ih h2⟩
        rcases mem_insert hd with rfl | hd
        · exact nameLt_of_not hn (by simpa using hlt)
        · exact h1 d hd

theorem find_eq_none_of_not_mem {t : HandleTable} {name : Name} (h : ∀ x, (name, x) ∉ t) : t.find name = none := by
  induction t with
  | nil => rfl
  | cons e rest ih =>
    obtain ⟨n, x⟩ := e
    have hn : n ≠ name := fun e => h x (by simp [e])
    simp only [HandleTable.find, hn, if_false]
    exact ih (fun y hy => h y (List.mem_cons_of_mem _ hy))

theorem mem_of_find {t : HandleTable} {name : Name} {h : Handle} (hf : t.find name = some h) : (name, h) ∈ t := by
  induction t with
  | nil => simp [HandleTable.find] at hf
  | cons e rest ih =>
    obtain ⟨n, x⟩ := e
    by_cases hn : n = name
    · simp [HandleTable.find, hn] at hf; simp [hn, hf]
    · simp only [HandleTable.find, hn, if_false] at hf
      exact List.mem_cons_of_mem _ (ih hf)

theorem find_of_mem {t : HandleTable} (ht : t.wf) {name : Name} {h : Handle} (hm : (name, h) ∈ t) :
    t.find name = some h := by
  induction t with
  | nil => simp at hm
  | cons e rest ih =>
    obtain ⟨n, x⟩ := e
    obtain ⟨h1, h2⟩ := List.pairwise_cons.1 ht
    rcases List.mem_cons.1 hm with he | hm'
    · obtain ⟨rfl, rfl⟩ := Prod.mk.inj he
      simp [HandleTable.find]
    · have hlt := h1 _ hm'
      have hn : n ≠ name := by
        rintro rfl
        simp [nameLt_irrefl] at hlt
      simpa only [HandleTable.find, hn, if_false] using ih h2 hm'

end Sys2Proof.Machine
end

