-- ==== Sys2Proof/Laws/Memory.lean ====
section
/-! SUPPORT. The laws of the bank array: what a read gives after a write or a cut, that both keep the canonical form, and
what a resized table holds. -/

namespace Sys2Proof.Machine

theorem read_append (m m' : Memory) (a : Nat) :
    Memory.read (m ++ m') a = match Memory.read m a with | some v => some v | none => Memory.read m' a := by
  induction m with
  | nil => rfl
  | cons c rest ih =>
    obtain ⟨k, v⟩ := c
    by_cases h : k = a <;> simp [Memory.read, h, ih]

theorem read_filter (m : Memory) (p : Nat → Bool) (a : Nat) :
    Memory.read (m.filter (fun c => p c.1)) a = if p a then Memory.read m a else none := by
  induction m with
  | nil => simp [Memory.read]
  | cons c rest ih =>
    obtain ⟨k, v⟩ := c
    by_cases hk : k = a
    · subst hk; by_cases hp : p k <;> simp_all [Memory.read]
    · by_cases hp : p k <;> simp_all [Memory.read]

theorem read_block (a : Nat) (bytes : List Byte) (x : Nat) :
    Memory.read (Memory.block a bytes) x = if a ≤ x then bytes[x - a]? else none := by
  induction bytes generalizing a with
  | nil => simp [Memory.block, Memory.read]
  | cons v rest ih =>
    simp only [Memory.block, Memory.read, ih]
    by_cases h : a = x
    · simp [h]
    · by_cases h' : a ≤ x
      · obtain ⟨n, rfl⟩ := Nat.exists_eq_add_of_le h'
        obtain ⟨m, rfl⟩ : ∃ m, n = m + 1 := ⟨n - 1, by omega⟩
        have e : a + (m + 1) - (a + 1) = m := by omega
        have e' : a + (m + 1) - a = m + 1 := by omega
        simp [e, e']
      · have : ¬ a + 1 ≤ x := by omega
        simp [h, h', this]

/-- A read after a write: the stored byte inside the stored range, and outside it what was read before. -/
theorem read_write (m : Memory) (a : Nat) (bytes : List Byte) (x : Nat) :
    (m.write a bytes).read x = if a ≤ x ∧ x < a + bytes.length then bytes[x - a]? else m.read x := by
  have h1 := read_filter m (fun k => decide (k < a)) x
  have h2 := read_filter m (fun k => decide (a + bytes.length ≤ k)) x
  simp only [Memory.write, read_append, read_block, h1, h2]
  by_cases hx : x < a
  · have : ¬ a ≤ x := by omega
    have h3 : ¬ a + bytes.length ≤ x := by omega
    simp [hx, this, h3]
    cases m.read x <;> rfl
  · by_cases hy : x < a + bytes.length
    · have hi : x - a < bytes.length := by omega
      simp [hx, hy, hi, show a ≤ x by omega]
    · have : bytes.length ≤ x - a := by omega
      simp [hx, hy, show a ≤ x by omega, List.getElem?_eq_none this]

theorem read_below (m : Memory) (a x : Nat) : (m.below a).read x = if x < a then m.read x else none := by
  have h := read_filter m (fun k => decide (k < a)) x
  simpa [Memory.below] using h

theorem mem_block {a : Nat} {bytes : List Byte} {c : Host.Cell} (h : c ∈ Memory.block a bytes) :
    a ≤ c.1 ∧ c.1 < a + bytes.length := by
  induction bytes generalizing a with
  | nil => simp [Memory.block] at h
  | cons v rest ih =>
    simp only [Memory.block, List.mem_cons] at h
    rcases h with rfl | h
    · simp
    · have := ih h
      simp only [List.length_cons]
      omega

theorem mem_write {m : Memory} {a : Nat} {bytes : List Byte} {c : Host.Cell} (h : c ∈ m.write a bytes) :
    c ∈ m ∨ (a ≤ c.1 ∧ c.1 < a + bytes.length) := by
  simp only [Memory.write, List.mem_append, List.mem_filter] at h
  rcases h with (h | h) | h
  · exact .inl h.1
  · exact .inr (mem_block h)
  · exact .inl h.1

theorem block_wf (a : Nat) (bytes : List Byte) : Memory.wf (Memory.block a bytes) := by
  induction bytes generalizing a with
  | nil => exact List.Pairwise.nil
  | cons v rest ih => exact List.Pairwise.cons (fun c hc => by have := mem_block hc; simp; omega) (ih (a + 1))

/-- A write keeps the canonical form. -/
theorem write_wf {m : Memory} (hm : m.wf) (a : Nat) (bytes : List Byte) : (m.write a bytes).wf := by
  refine List.pairwise_append.2 ⟨List.pairwise_append.2 ⟨hm.filter _, block_wf a bytes, ?_⟩, hm.filter _, ?_⟩
  · intro x hx y hy
    have h1 := (List.mem_filter.1 hx).2
    have h2 := mem_block hy
    simp at h1
    omega
  · intro x hx y hy
    have h2 := (List.mem_filter.1 hy).2
    simp at h2
    rcases List.mem_append.1 hx with h | h
    · have h1 := (List.mem_filter.1 h).2
      simp at h1
      omega
    · have := mem_block h
      omega

/-- A cut keeps the canonical form. -/
theorem below_wf {m : Memory} (hm : m.wf) (a : Nat) : (m.below a).wf := List.Pairwise.filter _ hm

theorem mem_of_read {m : Memory} {a : Nat} {v : Byte} (h : m.read a = some v) : (a, v) ∈ m := by
  induction m with
  | nil => simp [Memory.read] at h
  | cons c rest ih =>
    obtain ⟨k, w⟩ := c
    by_cases hk : k = a
    · subst hk; simp_all [Memory.read]
    · simp only [Memory.read, hk, if_false] at h
      exact List.mem_cons_of_mem _ (ih h)

/-- Two places of the bank array have one key only if they are one place. -/
theorem bankKey_inj {b b' o o' : Nat} (ho : o < bankSize) (ho' : o' < bankSize) (h : bankKey b o = bankKey b' o') :
    b = b' ∧ o = o' := by
  unfold bankKey bankSize at *
  omega

theorem bankKey_div {b o : Nat} (ho : o < bankSize) : bankKey b o / bankSize = b := by
  unfold bankKey bankSize at *
  omega

theorem bankKey_mod {b o : Nat} (ho : o < bankSize) : bankKey b o % bankSize = o := by
  unfold bankKey bankSize at *
  omega

theorem length_resize {α : Type} (l : List α) (n : Nat) (d : α) : (resize l n d).length = n := by
  simp [resize]
  omega

theorem getElem?_resize_of_lt {α : Type} (l : List α) (n i : Nat) (d : α) (hi : i < l.length) (hn : i < n) :
    (resize l n d)[i]? = l[i]? := by
  simp [resize, List.getElem?_append, hi, hn]

theorem getElem?_resize_of_ge {α : Type} (l : List α) (n i : Nat) (d : α) (hi : l.length ≤ i) (hn : i < n) :
    (resize l n d)[i]? = some d := by
  have h : ¬ i < l.length := by omega
  simp [resize, List.getElem?_append, h, List.getElem?_replicate]
  omega

theorem mem_resize {α : Type} {l : List α} {n : Nat} {d x : α} (h : x ∈ resize l n d) : x ∈ l ∨ x = d := by
  rcases List.mem_append.1 h with h | h
  · exact .inl (List.mem_of_mem_take h)
  · exact .inr (List.eq_of_mem_replicate h)

theorem resize_self {α : Type} (l : List α) (n : Nat) (d : α) (h : l.length = n) : resize l n d = l := by
  subst h
  simp [resize]

end Sys2Proof.Machine
end

