-- ==== Sys2Proof/Laws/State.lean ====
section
/-! SUPPORT. One lemma for each field of State and each named update of it. -/

namespace Sys2Proof.Machine

/-! ### respond -/

@[simp] theorem State.respond_IF (s : State) (r : Response) : (s.respond r).IF = s.IF := rfl
@[simp] theorem State.respond_IE (s : State) (r : Response) : (s.respond r).IE = s.IE := rfl
@[simp] theorem State.respond_IME (s : State) (r : Response) : (s.respond r).IME = s.IME := rfl
@[simp] theorem State.respond_handlers (s : State) (r : Response) : (s.respond r).handlers = s.handlers := rfl
@[simp] theorem State.respond_svc (s : State) (r : Response) : (s.respond r).svc = s.svc := rfl
@[simp] theorem State.respond_divider (s : State) (r : Response) : (s.respond r).divider = s.divider := rfl
@[simp] theorem State.respond_oldDivider (s : State) (r : Response) : (s.respond r).oldDivider = s.oldDivider := rfl
@[simp] theorem State.respond_counter (s : State) (r : Response) : (s.respond r).counter = s.counter := rfl
@[simp] theorem State.respond_modulo (s : State) (r : Response) : (s.respond r).modulo = s.modulo := rfl
@[simp] theorem State.respond_clockSpeed (s : State) (r : Response) : (s.respond r).clockSpeed = s.clockSpeed := rfl
@[simp] theorem State.respond_enabled (s : State) (r : Response) : (s.respond r).enabled = s.enabled := rfl
@[simp] theorem State.respond_selectButtons (s : State) (r : Response) : (s.respond r).selectButtons = s.selectButtons := rfl
@[simp] theorem State.respond_selectDPad (s : State) (r : Response) : (s.respond r).selectDPad = s.selectDPad := rfl
@[simp] theorem State.respond_buttons (s : State) (r : Response) : (s.respond r).buttons = s.buttons := rfl
@[simp] theorem State.respond_dPad (s : State) (r : Response) : (s.respond r).dPad = s.dPad := rfl
@[simp] theorem State.respond_seconds (s : State) (r : Response) : (s.respond r).seconds = s.seconds := rfl
@[simp] theorem State.respond_minutes (s : State) (r : Response) : (s.respond r).minutes = s.minutes := rfl
@[simp] theorem State.respond_hours (s : State) (r : Response) : (s.respond r).hours = s.hours := rfl
@[simp] theorem State.respond_dayLow (s : State) (r : Response) : (s.respond r).dayLow = s.dayLow := rfl
@[simp] theorem State.respond_dayHigh (s : State) (r : Response) : (s.respond r).dayHigh = s.dayHigh := rfl
@[simp] theorem State.respond_bankCount (s : State) (r : Response) : (s.respond r).bankCount = s.bankCount := rfl
@[simp] theorem State.respond_banks (s : State) (r : Response) : (s.respond r).banks = s.banks := rfl
@[simp] theorem State.respond_fill (s : State) (r : Response) : (s.respond r).fill = s.fill := rfl
@[simp] theorem State.respond_currentBank (s : State) (r : Response) : (s.respond r).currentBank = s.currentBank := rfl
@[simp] theorem State.respond_handles (s : State) (r : Response) : (s.respond r).handles = s.handles := rfl
@[simp] theorem State.respond_fault (s : State) (r : Response) : (s.respond r).fault = s.fault := rfl
@[simp] theorem State.respond_cfg (s : State) (r : Response) : (s.respond r).cfg = s.cfg := rfl
@[simp] theorem State.respond_origins (s : State) (r : Response) : (s.respond r).origins = s.origins := rfl
@[simp] theorem State.respond_draws (s : State) (r : Response) : (s.respond r).draws = s.draws := rfl
@[simp] theorem State.respond_pending (s : State) (r : Response) : (s.respond r).pending = s.pending := rfl
@[simp] theorem State.respond_answers (s : State) (r : Response) : (s.respond r).answers = s.answers := rfl
@[simp] theorem State.respond_response (s : State) (r : Response) : (s.respond r).response = some r := rfl

/-! ### raise -/

@[simp] theorem State.raise_IF (s : State) (code : FaultCode) : (s.raise code).IF = s.IF := rfl
@[simp] theorem State.raise_IE (s : State) (code : FaultCode) : (s.raise code).IE = s.IE := rfl
@[simp] theorem State.raise_IME (s : State) (code : FaultCode) : (s.raise code).IME = s.IME := rfl
@[simp] theorem State.raise_handlers (s : State) (code : FaultCode) : (s.raise code).handlers = s.handlers := rfl
@[simp] theorem State.raise_svc (s : State) (code : FaultCode) : (s.raise code).svc = s.svc := rfl
@[simp] theorem State.raise_divider (s : State) (code : FaultCode) : (s.raise code).divider = s.divider := rfl
@[simp] theorem State.raise_oldDivider (s : State) (code : FaultCode) : (s.raise code).oldDivider = s.oldDivider := rfl
@[simp] theorem State.raise_counter (s : State) (code : FaultCode) : (s.raise code).counter = s.counter := rfl
@[simp] theorem State.raise_modulo (s : State) (code : FaultCode) : (s.raise code).modulo = s.modulo := rfl
@[simp] theorem State.raise_clockSpeed (s : State) (code : FaultCode) : (s.raise code).clockSpeed = s.clockSpeed := rfl
@[simp] theorem State.raise_enabled (s : State) (code : FaultCode) : (s.raise code).enabled = s.enabled := rfl
@[simp] theorem State.raise_selectButtons (s : State) (code : FaultCode) : (s.raise code).selectButtons = s.selectButtons := rfl
@[simp] theorem State.raise_selectDPad (s : State) (code : FaultCode) : (s.raise code).selectDPad = s.selectDPad := rfl
@[simp] theorem State.raise_buttons (s : State) (code : FaultCode) : (s.raise code).buttons = s.buttons := rfl
@[simp] theorem State.raise_dPad (s : State) (code : FaultCode) : (s.raise code).dPad = s.dPad := rfl
@[simp] theorem State.raise_seconds (s : State) (code : FaultCode) : (s.raise code).seconds = s.seconds := rfl
@[simp] theorem State.raise_minutes (s : State) (code : FaultCode) : (s.raise code).minutes = s.minutes := rfl
@[simp] theorem State.raise_hours (s : State) (code : FaultCode) : (s.raise code).hours = s.hours := rfl
@[simp] theorem State.raise_dayLow (s : State) (code : FaultCode) : (s.raise code).dayLow = s.dayLow := rfl
@[simp] theorem State.raise_dayHigh (s : State) (code : FaultCode) : (s.raise code).dayHigh = s.dayHigh := rfl
@[simp] theorem State.raise_bankCount (s : State) (code : FaultCode) : (s.raise code).bankCount = s.bankCount := rfl
@[simp] theorem State.raise_banks (s : State) (code : FaultCode) : (s.raise code).banks = s.banks := rfl
@[simp] theorem State.raise_fill (s : State) (code : FaultCode) : (s.raise code).fill = s.fill := rfl
@[simp] theorem State.raise_currentBank (s : State) (code : FaultCode) : (s.raise code).currentBank = s.currentBank := rfl
@[simp] theorem State.raise_handles (s : State) (code : FaultCode) : (s.raise code).handles = s.handles := rfl
@[simp] theorem State.raise_fault (s : State) (code : FaultCode) : (s.raise code).fault = some code := rfl
@[simp] theorem State.raise_cfg (s : State) (code : FaultCode) : (s.raise code).cfg = s.cfg := rfl
@[simp] theorem State.raise_origins (s : State) (code : FaultCode) : (s.raise code).origins = s.origins := rfl
@[simp] theorem State.raise_draws (s : State) (code : FaultCode) : (s.raise code).draws = s.draws := rfl
@[simp] theorem State.raise_pending (s : State) (code : FaultCode) : (s.raise code).pending = s.pending := rfl
@[simp] theorem State.raise_answers (s : State) (code : FaultCode) : (s.raise code).answers = s.answers := rfl
@[simp] theorem State.raise_response (s : State) (code : FaultCode) : (s.raise code).response = some (.faulted code) := rfl

/-! ### requestInterrupt -/

@[simp] theorem State.requestInterrupt_IF (s : State) (k : Kind) : (s.requestInterrupt k).IF = setBit s.IF k.val true := rfl
@[simp] theorem State.requestInterrupt_IE (s : State) (k : Kind) : (s.requestInterrupt k).IE = s.IE := rfl
@[simp] theorem State.requestInterrupt_IME (s : State) (k : Kind) : (s.requestInterrupt k).IME = s.IME := rfl
@[simp] theorem State.requestInterrupt_handlers (s : State) (k : Kind) : (s.requestInterrupt k).handlers = s.handlers := rfl
@[simp] theorem State.requestInterrupt_svc (s : State) (k : Kind) : (s.requestInterrupt k).svc = s.svc := rfl
@[simp] theorem State.requestInterrupt_divider (s : State) (k : Kind) : (s.requestInterrupt k).divider = s.divider := rfl
@[simp] theorem State.requestInterrupt_oldDivider (s : State) (k : Kind) : (s.requestInterrupt k).oldDivider = s.oldDivider := rfl
@[simp] theorem State.requestInterrupt_counter (s : State) (k : Kind) : (s.requestInterrupt k).counter = s.counter := rfl
@[simp] theorem State.requestInterrupt_modulo (s : State) (k : Kind) : (s.requestInterrupt k).modulo = s.modulo := rfl
@[simp] theorem State.requestInterrupt_clockSpeed (s : State) (k : Kind) : (s.requestInterrupt k).clockSpeed = s.clockSpeed := rfl
@[simp] theorem State.requestInterrupt_enabled (s : State) (k : Kind) : (s.requestInterrupt k).enabled = s.enabled := rfl
@[simp] theorem State.requestInterrupt_selectButtons (s : State) (k : Kind) : (s.requestInterrupt k).selectButtons = s.selectButtons := rfl
@[simp] theorem State.requestInterrupt_selectDPad (s : State) (k : Kind) : (s.requestInterrupt k).selectDPad = s.selectDPad := rfl
@[simp] theorem State.requestInterrupt_buttons (s : State) (k : Kind) : (s.requestInterrupt k).buttons = s.buttons := rfl
@[simp] theorem State.requestInterrupt_dPad (s : State) (k : Kind) : (s.requestInterrupt k).dPad = s.dPad := rfl
@[simp] theorem State.requestInterrupt_seconds (s : State) (k : Kind) : (s.requestInterrupt k).seconds = s.seconds := rfl
@[simp] theorem State.requestInterrupt_minutes (s : State) (k : Kind) : (s.requestInterrupt k).minutes = s.minutes := rfl
@[simp] theorem State.requestInterrupt_hours (s : State) (k : Kind) : (s.requestInterrupt k).hours = s.hours := rfl
@[simp] theorem State.requestInterrupt_dayLow (s : State) (k : Kind) : (s.requestInterrupt k).dayLow = s.dayLow := rfl
@[simp] theorem State.requestInterrupt_dayHigh (s : State) (k : Kind) : (s.requestInterrupt k).dayHigh = s.dayHigh := rfl
@[simp] theorem State.requestInterrupt_bankCount (s : State) (k : Kind) : (s.requestInterrupt k).bankCount = s.bankCount := rfl
@[simp] theorem State.requestInterrupt_banks (s : State) (k : Kind) : (s.requestInterrupt k).banks = s.banks := rfl
@[simp] theorem State.requestInterrupt_fill (s : State) (k : Kind) : (s.requestInterrupt k).fill = s.fill := rfl
@[simp] theorem State.requestInterrupt_currentBank (s : State) (k : Kind) : (s.requestInterrupt k).currentBank = s.currentBank := rfl
@[simp] theorem State.requestInterrupt_handles (s : State) (k : Kind) : (s.requestInterrupt k).handles = s.handles := rfl
@[simp] theorem State.requestInterrupt_fault (s : State) (k : Kind) : (s.requestInterrupt k).fault = s.fault := rfl
@[simp] theorem State.requestInterrupt_cfg (s : State) (k : Kind) : (s.requestInterrupt k).cfg = s.cfg := rfl
@[simp] theorem State.requestInterrupt_origins (s : State) (k : Kind) : (s.requestInterrupt k).origins = s.origins := rfl
@[simp] theorem State.requestInterrupt_draws (s : State) (k : Kind) : (s.requestInterrupt k).draws = s.draws := rfl
@[simp] theorem State.requestInterrupt_pending (s : State) (k : Kind) : (s.requestInterrupt k).pending = s.pending := rfl
@[simp] theorem State.requestInterrupt_answers (s : State) (k : Kind) : (s.requestInterrupt k).answers = s.answers := rfl
@[simp] theorem State.requestInterrupt_response (s : State) (k : Kind) : (s.requestInterrupt k).response = s.response := rfl

/-! ### cancelInterrupt -/

@[simp] theorem State.cancelInterrupt_IF (s : State) (k : Kind) : (s.cancelInterrupt k).IF = setBit s.IF k.val false := rfl
@[simp] theorem State.cancelInterrupt_IE (s : State) (k : Kind) : (s.cancelInterrupt k).IE = s.IE := rfl
@[simp] theorem State.cancelInterrupt_IME (s : State) (k : Kind) : (s.cancelInterrupt k).IME = s.IME := rfl
@[simp] theorem State.cancelInterrupt_handlers (s : State) (k : Kind) : (s.cancelInterrupt k).handlers = s.handlers := rfl
@[simp] theorem State.cancelInterrupt_svc (s : State) (k : Kind) : (s.cancelInterrupt k).svc = s.svc := rfl
@[simp] theorem State.cancelInterrupt_divider (s : State) (k : Kind) : (s.cancelInterrupt k).divider = s.divider := rfl
@[simp] theorem State.cancelInterrupt_oldDivider (s : State) (k : Kind) : (s.cancelInterrupt k).oldDivider = s.oldDivider := rfl
@[simp] theorem State.cancelInterrupt_counter (s : State) (k : Kind) : (s.cancelInterrupt k).counter = s.counter := rfl
@[simp] theorem State.cancelInterrupt_modulo (s : State) (k : Kind) : (s.cancelInterrupt k).modulo = s.modulo := rfl
@[simp] theorem State.cancelInterrupt_clockSpeed (s : State) (k : Kind) : (s.cancelInterrupt k).clockSpeed = s.clockSpeed := rfl
@[simp] theorem State.cancelInterrupt_enabled (s : State) (k : Kind) : (s.cancelInterrupt k).enabled = s.enabled := rfl
@[simp] theorem State.cancelInterrupt_selectButtons (s : State) (k : Kind) : (s.cancelInterrupt k).selectButtons = s.selectButtons := rfl
@[simp] theorem State.cancelInterrupt_selectDPad (s : State) (k : Kind) : (s.cancelInterrupt k).selectDPad = s.selectDPad := rfl
@[simp] theorem State.cancelInterrupt_buttons (s : State) (k : Kind) : (s.cancelInterrupt k).buttons = s.buttons := rfl
@[simp] theorem State.cancelInterrupt_dPad (s : State) (k : Kind) : (s.cancelInterrupt k).dPad = s.dPad := rfl
@[simp] theorem State.cancelInterrupt_seconds (s : State) (k : Kind) : (s.cancelInterrupt k).seconds = s.seconds := rfl
@[simp] theorem State.cancelInterrupt_minutes (s : State) (k : Kind) : (s.cancelInterrupt k).minutes = s.minutes := rfl
@[simp] theorem State.cancelInterrupt_hours (s : State) (k : Kind) : (s.cancelInterrupt k).hours = s.hours := rfl
@[simp] theorem State.cancelInterrupt_dayLow (s : State) (k : Kind) : (s.cancelInterrupt k).dayLow = s.dayLow := rfl
@[simp] theorem State.cancelInterrupt_dayHigh (s : State) (k : Kind) : (s.cancelInterrupt k).dayHigh = s.dayHigh := rfl
@[simp] theorem State.cancelInterrupt_bankCount (s : State) (k : Kind) : (s.cancelInterrupt k).bankCount = s.bankCount := rfl
@[simp] theorem State.cancelInterrupt_banks (s : State) (k : Kind) : (s.cancelInterrupt k).banks = s.banks := rfl
@[simp] theorem State.cancelInterrupt_fill (s : State) (k : Kind) : (s.cancelInterrupt k).fill = s.fill := rfl
@[simp] theorem State.cancelInterrupt_currentBank (s : State) (k : Kind) : (s.cancelInterrupt k).currentBank = s.currentBank := rfl
@[simp] theorem State.cancelInterrupt_handles (s : State) (k : Kind) : (s.cancelInterrupt k).handles = s.handles := rfl
@[simp] theorem State.cancelInterrupt_fault (s : State) (k : Kind) : (s.cancelInterrupt k).fault = s.fault := rfl
@[simp] theorem State.cancelInterrupt_cfg (s : State) (k : Kind) : (s.cancelInterrupt k).cfg = s.cfg := rfl
@[simp] theorem State.cancelInterrupt_origins (s : State) (k : Kind) : (s.cancelInterrupt k).origins = s.origins := rfl
@[simp] theorem State.cancelInterrupt_draws (s : State) (k : Kind) : (s.cancelInterrupt k).draws = s.draws := rfl
@[simp] theorem State.cancelInterrupt_pending (s : State) (k : Kind) : (s.cancelInterrupt k).pending = s.pending := rfl
@[simp] theorem State.cancelInterrupt_answers (s : State) (k : Kind) : (s.cancelInterrupt k).answers = s.answers := rfl
@[simp] theorem State.cancelInterrupt_response (s : State) (k : Kind) : (s.cancelInterrupt k).response = s.response := rfl

/-! ### endHandler -/

@[simp] theorem State.endHandler_IF (s : State) (r : Bool) : (s.endHandler r).IF = s.IF := rfl
@[simp] theorem State.endHandler_IE (s : State) (r : Bool) : (s.endHandler r).IE = s.IE := rfl
@[simp] theorem State.endHandler_IME (s : State) (r : Bool) : (s.endHandler r).IME = s.IME := rfl
@[simp] theorem State.endHandler_handlers (s : State) (r : Bool) : (s.endHandler r).handlers = s.handlers := rfl
@[simp] theorem State.endHandler_svc (s : State) (r : Bool) : (s.endHandler r).svc = .idle := rfl
@[simp] theorem State.endHandler_divider (s : State) (r : Bool) : (s.endHandler r).divider = s.divider := rfl
@[simp] theorem State.endHandler_oldDivider (s : State) (r : Bool) : (s.endHandler r).oldDivider = s.oldDivider := rfl
@[simp] theorem State.endHandler_counter (s : State) (r : Bool) : (s.endHandler r).counter = s.counter := rfl
@[simp] theorem State.endHandler_modulo (s : State) (r : Bool) : (s.endHandler r).modulo = s.modulo := rfl
@[simp] theorem State.endHandler_clockSpeed (s : State) (r : Bool) : (s.endHandler r).clockSpeed = s.clockSpeed := rfl
@[simp] theorem State.endHandler_enabled (s : State) (r : Bool) : (s.endHandler r).enabled = s.enabled := rfl
@[simp] theorem State.endHandler_selectButtons (s : State) (r : Bool) : (s.endHandler r).selectButtons = s.selectButtons := rfl
@[simp] theorem State.endHandler_selectDPad (s : State) (r : Bool) : (s.endHandler r).selectDPad = s.selectDPad := rfl
@[simp] theorem State.endHandler_buttons (s : State) (r : Bool) : (s.endHandler r).buttons = s.buttons := rfl
@[simp] theorem State.endHandler_dPad (s : State) (r : Bool) : (s.endHandler r).dPad = s.dPad := rfl
@[simp] theorem State.endHandler_seconds (s : State) (r : Bool) : (s.endHandler r).seconds = s.seconds := rfl
@[simp] theorem State.endHandler_minutes (s : State) (r : Bool) : (s.endHandler r).minutes = s.minutes := rfl
@[simp] theorem State.endHandler_hours (s : State) (r : Bool) : (s.endHandler r).hours = s.hours := rfl
@[simp] theorem State.endHandler_dayLow (s : State) (r : Bool) : (s.endHandler r).dayLow = s.dayLow := rfl
@[simp] theorem State.endHandler_dayHigh (s : State) (r : Bool) : (s.endHandler r).dayHigh = s.dayHigh := rfl
@[simp] theorem State.endHandler_bankCount (s : State) (r : Bool) : (s.endHandler r).bankCount = s.bankCount := rfl
@[simp] theorem State.endHandler_banks (s : State) (r : Bool) : (s.endHandler r).banks = s.banks := rfl
@[simp] theorem State.endHandler_fill (s : State) (r : Bool) : (s.endHandler r).fill = s.fill := rfl
@[simp] theorem State.endHandler_currentBank (s : State) (r : Bool) : (s.endHandler r).currentBank = s.currentBank := rfl
@[simp] theorem State.endHandler_handles (s : State) (r : Bool) : (s.endHandler r).handles = s.handles := rfl
@[simp] theorem State.endHandler_fault (s : State) (r : Bool) : (s.endHandler r).fault = s.fault := rfl
@[simp] theorem State.endHandler_cfg (s : State) (r : Bool) : (s.endHandler r).cfg = s.cfg := rfl
@[simp] theorem State.endHandler_origins (s : State) (r : Bool) : (s.endHandler r).origins = s.origins := rfl
@[simp] theorem State.endHandler_draws (s : State) (r : Bool) : (s.endHandler r).draws = s.draws := rfl
@[simp] theorem State.endHandler_pending (s : State) (r : Bool) : (s.endHandler r).pending = s.pending := rfl
@[simp] theorem State.endHandler_answers (s : State) (r : Bool) : (s.endHandler r).answers = s.answers := rfl
@[simp] theorem State.endHandler_response (s : State) (r : Bool) : (s.endHandler r).response = some (.service (if r then .HANDLED_OK else .HANDLED_FAIL)) := rfl

/-! ### returnFromInterrupt -/

@[simp] theorem State.returnFromInterrupt_IF (s : State) : s.returnFromInterrupt.IF = s.IF := rfl
@[simp] theorem State.returnFromInterrupt_IE (s : State) : s.returnFromInterrupt.IE = s.IE := rfl
@[simp] theorem State.returnFromInterrupt_IME (s : State) : s.returnFromInterrupt.IME = true := rfl
@[simp] theorem State.returnFromInterrupt_handlers (s : State) : s.returnFromInterrupt.handlers = s.handlers := rfl
@[simp] theorem State.returnFromInterrupt_svc (s : State) : s.returnFromInterrupt.svc = s.svc := rfl
@[simp] theorem State.returnFromInterrupt_divider (s : State) : s.returnFromInterrupt.divider = s.divider := rfl
@[simp] theorem State.returnFromInterrupt_oldDivider (s : State) : s.returnFromInterrupt.oldDivider = s.oldDivider := rfl
@[simp] theorem State.returnFromInterrupt_counter (s : State) : s.returnFromInterrupt.counter = s.counter := rfl
@[simp] theorem State.returnFromInterrupt_modulo (s : State) : s.returnFromInterrupt.modulo = s.modulo := rfl
@[simp] theorem State.returnFromInterrupt_clockSpeed (s : State) : s.returnFromInterrupt.clockSpeed = s.clockSpeed := rfl
@[simp] theorem State.returnFromInterrupt_enabled (s : State) : s.returnFromInterrupt.enabled = s.enabled := rfl
@[simp] theorem State.returnFromInterrupt_selectButtons (s : State) : s.returnFromInterrupt.selectButtons = s.selectButtons := rfl
@[simp] theorem State.returnFromInterrupt_selectDPad (s : State) : s.returnFromInterrupt.selectDPad = s.selectDPad := rfl
@[simp] theorem State.returnFromInterrupt_buttons (s : State) : s.returnFromInterrupt.buttons = s.buttons := rfl
@[simp] theorem State.returnFromInterrupt_dPad (s : State) : s.returnFromInterrupt.dPad = s.dPad := rfl
@[simp] theorem State.returnFromInterrupt_seconds (s : State) : s.returnFromInterrupt.seconds = s.seconds := rfl
@[simp] theorem State.returnFromInterrupt_minutes (s : State) : s.returnFromInterrupt.minutes = s.minutes := rfl
@[simp] theorem State.returnFromInterrupt_hours (s : State) : s.returnFromInterrupt.hours = s.hours := rfl
@[simp] theorem State.returnFromInterrupt_dayLow (s : State) : s.returnFromInterrupt.dayLow = s.dayLow := rfl
@[simp] theorem State.returnFromInterrupt_dayHigh (s : State) : s.returnFromInterrupt.dayHigh = s.dayHigh := rfl
@[simp] theorem State.returnFromInterrupt_bankCount (s : State) : s.returnFromInterrupt.bankCount = s.bankCount := rfl
@[simp] theorem State.returnFromInterrupt_banks (s : State) : s.returnFromInterrupt.banks = s.banks := rfl
@[simp] theorem State.returnFromInterrupt_fill (s : State) : s.returnFromInterrupt.fill = s.fill := rfl
@[simp] theorem State.returnFromInterrupt_currentBank (s : State) : s.returnFromInterrupt.currentBank = s.currentBank := rfl
@[simp] theorem State.returnFromInterrupt_handles (s : State) : s.returnFromInterrupt.handles = s.handles := rfl
@[simp] theorem State.returnFromInterrupt_fault (s : State) : s.returnFromInterrupt.fault = s.fault := rfl
@[simp] theorem State.returnFromInterrupt_cfg (s : State) : s.returnFromInterrupt.cfg = s.cfg := rfl
@[simp] theorem State.returnFromInterrupt_origins (s : State) : s.returnFromInterrupt.origins = s.origins := rfl
@[simp] theorem State.returnFromInterrupt_draws (s : State) : s.returnFromInterrupt.draws = s.draws := rfl
@[simp] theorem State.returnFromInterrupt_pending (s : State) : s.returnFromInterrupt.pending = s.pending := rfl
@[simp] theorem State.returnFromInterrupt_answers (s : State) : s.returnFromInterrupt.answers = s.answers := rfl
@[simp] theorem State.returnFromInterrupt_response (s : State) : s.returnFromInterrupt.response = s.response := rfl

/-! ### accept -/

@[simp] theorem State.accept_IF (s : State) (tx : Transaction) : (s.accept tx).IF = s.IF := rfl
@[simp] theorem State.accept_IE (s : State) (tx : Transaction) : (s.accept tx).IE = s.IE := rfl
@[simp] theorem State.accept_IME (s : State) (tx : Transaction) : (s.accept tx).IME = s.IME := rfl
@[simp] theorem State.accept_handlers (s : State) (tx : Transaction) : (s.accept tx).handlers = s.handlers := rfl
@[simp] theorem State.accept_svc (s : State) (tx : Transaction) : (s.accept tx).svc = s.svc := rfl
@[simp] theorem State.accept_divider (s : State) (tx : Transaction) : (s.accept tx).divider = s.divider := rfl
@[simp] theorem State.accept_oldDivider (s : State) (tx : Transaction) : (s.accept tx).oldDivider = s.oldDivider := rfl
@[simp] theorem State.accept_counter (s : State) (tx : Transaction) : (s.accept tx).counter = s.counter := rfl
@[simp] theorem State.accept_modulo (s : State) (tx : Transaction) : (s.accept tx).modulo = s.modulo := rfl
@[simp] theorem State.accept_clockSpeed (s : State) (tx : Transaction) : (s.accept tx).clockSpeed = s.clockSpeed := rfl
@[simp] theorem State.accept_enabled (s : State) (tx : Transaction) : (s.accept tx).enabled = s.enabled := rfl
@[simp] theorem State.accept_selectButtons (s : State) (tx : Transaction) : (s.accept tx).selectButtons = s.selectButtons := rfl
@[simp] theorem State.accept_selectDPad (s : State) (tx : Transaction) : (s.accept tx).selectDPad = s.selectDPad := rfl
@[simp] theorem State.accept_buttons (s : State) (tx : Transaction) : (s.accept tx).buttons = s.buttons := rfl
@[simp] theorem State.accept_dPad (s : State) (tx : Transaction) : (s.accept tx).dPad = s.dPad := rfl
@[simp] theorem State.accept_seconds (s : State) (tx : Transaction) : (s.accept tx).seconds = s.seconds := rfl
@[simp] theorem State.accept_minutes (s : State) (tx : Transaction) : (s.accept tx).minutes = s.minutes := rfl
@[simp] theorem State.accept_hours (s : State) (tx : Transaction) : (s.accept tx).hours = s.hours := rfl
@[simp] theorem State.accept_dayLow (s : State) (tx : Transaction) : (s.accept tx).dayLow = s.dayLow := rfl
@[simp] theorem State.accept_dayHigh (s : State) (tx : Transaction) : (s.accept tx).dayHigh = s.dayHigh := rfl
@[simp] theorem State.accept_bankCount (s : State) (tx : Transaction) : (s.accept tx).bankCount = s.bankCount := rfl
@[simp] theorem State.accept_banks (s : State) (tx : Transaction) : (s.accept tx).banks = s.banks := rfl
@[simp] theorem State.accept_fill (s : State) (tx : Transaction) : (s.accept tx).fill = s.fill := rfl
@[simp] theorem State.accept_currentBank (s : State) (tx : Transaction) : (s.accept tx).currentBank = s.currentBank := rfl
@[simp] theorem State.accept_handles (s : State) (tx : Transaction) : (s.accept tx).handles = s.handles := rfl
@[simp] theorem State.accept_fault (s : State) (tx : Transaction) : (s.accept tx).fault = s.fault := rfl
@[simp] theorem State.accept_cfg (s : State) (tx : Transaction) : (s.accept tx).cfg = s.cfg := rfl
@[simp] theorem State.accept_origins (s : State) (tx : Transaction) : (s.accept tx).origins = s.origins := rfl
@[simp] theorem State.accept_draws (s : State) (tx : Transaction) : (s.accept tx).draws = s.draws + 1 := rfl
@[simp] theorem State.accept_pending (s : State) (tx : Transaction) : (s.accept tx).pending = s.pending := rfl
@[simp] theorem State.accept_answers (s : State) (tx : Transaction) : (s.accept tx).answers = tx.answers := rfl
@[simp] theorem State.accept_response (s : State) (tx : Transaction) : (s.accept tx).response = s.response := rfl

/-! ### setRtcFields -/

@[simp] theorem State.setRtcFields_IF (s : State) (f : RtcFields) : (s.setRtcFields f).IF = s.IF := rfl
@[simp] theorem State.setRtcFields_IE (s : State) (f : RtcFields) : (s.setRtcFields f).IE = s.IE := rfl
@[simp] theorem State.setRtcFields_IME (s : State) (f : RtcFields) : (s.setRtcFields f).IME = s.IME := rfl
@[simp] theorem State.setRtcFields_handlers (s : State) (f : RtcFields) : (s.setRtcFields f).handlers = s.handlers := rfl
@[simp] theorem State.setRtcFields_svc (s : State) (f : RtcFields) : (s.setRtcFields f).svc = s.svc := rfl
@[simp] theorem State.setRtcFields_divider (s : State) (f : RtcFields) : (s.setRtcFields f).divider = s.divider := rfl
@[simp] theorem State.setRtcFields_oldDivider (s : State) (f : RtcFields) : (s.setRtcFields f).oldDivider = s.oldDivider := rfl
@[simp] theorem State.setRtcFields_counter (s : State) (f : RtcFields) : (s.setRtcFields f).counter = s.counter := rfl
@[simp] theorem State.setRtcFields_modulo (s : State) (f : RtcFields) : (s.setRtcFields f).modulo = s.modulo := rfl
@[simp] theorem State.setRtcFields_clockSpeed (s : State) (f : RtcFields) : (s.setRtcFields f).clockSpeed = s.clockSpeed := rfl
@[simp] theorem State.setRtcFields_enabled (s : State) (f : RtcFields) : (s.setRtcFields f).enabled = s.enabled := rfl
@[simp] theorem State.setRtcFields_selectButtons (s : State) (f : RtcFields) : (s.setRtcFields f).selectButtons = s.selectButtons := rfl
@[simp] theorem State.setRtcFields_selectDPad (s : State) (f : RtcFields) : (s.setRtcFields f).selectDPad = s.selectDPad := rfl
@[simp] theorem State.setRtcFields_buttons (s : State) (f : RtcFields) : (s.setRtcFields f).buttons = s.buttons := rfl
@[simp] theorem State.setRtcFields_dPad (s : State) (f : RtcFields) : (s.setRtcFields f).dPad = s.dPad := rfl
@[simp] theorem State.setRtcFields_seconds (s : State) (f : RtcFields) : (s.setRtcFields f).seconds = f.seconds := rfl
@[simp] theorem State.setRtcFields_minutes (s : State) (f : RtcFields) : (s.setRtcFields f).minutes = f.minutes := rfl
@[simp] theorem State.setRtcFields_hours (s : State) (f : RtcFields) : (s.setRtcFields f).hours = f.hours := rfl
@[simp] theorem State.setRtcFields_dayLow (s : State) (f : RtcFields) : (s.setRtcFields f).dayLow = f.dayLow := rfl
@[simp] theorem State.setRtcFields_dayHigh (s : State) (f : RtcFields) : (s.setRtcFields f).dayHigh = f.dayHigh := rfl
@[simp] theorem State.setRtcFields_bankCount (s : State) (f : RtcFields) : (s.setRtcFields f).bankCount = s.bankCount := rfl
@[simp] theorem State.setRtcFields_banks (s : State) (f : RtcFields) : (s.setRtcFields f).banks = s.banks := rfl
@[simp] theorem State.setRtcFields_fill (s : State) (f : RtcFields) : (s.setRtcFields f).fill = s.fill := rfl
@[simp] theorem State.setRtcFields_currentBank (s : State) (f : RtcFields) : (s.setRtcFields f).currentBank = s.currentBank := rfl
@[simp] theorem State.setRtcFields_handles (s : State) (f : RtcFields) : (s.setRtcFields f).handles = s.handles := rfl
@[simp] theorem State.setRtcFields_fault (s : State) (f : RtcFields) : (s.setRtcFields f).fault = s.fault := rfl
@[simp] theorem State.setRtcFields_cfg (s : State) (f : RtcFields) : (s.setRtcFields f).cfg = s.cfg := rfl
@[simp] theorem State.setRtcFields_origins (s : State) (f : RtcFields) : (s.setRtcFields f).origins = s.origins := rfl
@[simp] theorem State.setRtcFields_draws (s : State) (f : RtcFields) : (s.setRtcFields f).draws = s.draws := rfl
@[simp] theorem State.setRtcFields_pending (s : State) (f : RtcFields) : (s.setRtcFields f).pending = s.pending := rfl
@[simp] theorem State.setRtcFields_answers (s : State) (f : RtcFields) : (s.setRtcFields f).answers = s.answers := rfl
@[simp] theorem State.setRtcFields_response (s : State) (f : RtcFields) : (s.setRtcFields f).response = s.response := rfl

/-! ### resizeBanks -/

@[simp] theorem State.resizeBanks_IF (s : State) (n : Nat) : (s.resizeBanks n).IF = s.IF := rfl
@[simp] theorem State.resizeBanks_IE (s : State) (n : Nat) : (s.resizeBanks n).IE = s.IE := rfl
@[simp] theorem State.resizeBanks_IME (s : State) (n : Nat) : (s.resizeBanks n).IME = s.IME := rfl
@[simp] theorem State.resizeBanks_handlers (s : State) (n : Nat) : (s.resizeBanks n).handlers = s.handlers := rfl
@[simp] theorem State.resizeBanks_svc (s : State) (n : Nat) : (s.resizeBanks n).svc = s.svc := rfl
@[simp] theorem State.resizeBanks_divider (s : State) (n : Nat) : (s.resizeBanks n).divider = s.divider := rfl
@[simp] theorem State.resizeBanks_oldDivider (s : State) (n : Nat) : (s.resizeBanks n).oldDivider = s.oldDivider := rfl
@[simp] theorem State.resizeBanks_counter (s : State) (n : Nat) : (s.resizeBanks n).counter = s.counter := rfl
@[simp] theorem State.resizeBanks_modulo (s : State) (n : Nat) : (s.resizeBanks n).modulo = s.modulo := rfl
@[simp] theorem State.resizeBanks_clockSpeed (s : State) (n : Nat) : (s.resizeBanks n).clockSpeed = s.clockSpeed := rfl
@[simp] theorem State.resizeBanks_enabled (s : State) (n : Nat) : (s.resizeBanks n).enabled = s.enabled := rfl
@[simp] theorem State.resizeBanks_selectButtons (s : State) (n : Nat) : (s.resizeBanks n).selectButtons = s.selectButtons := rfl
@[simp] theorem State.resizeBanks_selectDPad (s : State) (n : Nat) : (s.resizeBanks n).selectDPad = s.selectDPad := rfl
@[simp] theorem State.resizeBanks_buttons (s : State) (n : Nat) : (s.resizeBanks n).buttons = s.buttons := rfl
@[simp] theorem State.resizeBanks_dPad (s : State) (n : Nat) : (s.resizeBanks n).dPad = s.dPad := rfl
@[simp] theorem State.resizeBanks_seconds (s : State) (n : Nat) : (s.resizeBanks n).seconds = s.seconds := rfl
@[simp] theorem State.resizeBanks_minutes (s : State) (n : Nat) : (s.resizeBanks n).minutes = s.minutes := rfl
@[simp] theorem State.resizeBanks_hours (s : State) (n : Nat) : (s.resizeBanks n).hours = s.hours := rfl
@[simp] theorem State.resizeBanks_dayLow (s : State) (n : Nat) : (s.resizeBanks n).dayLow = s.dayLow := rfl
@[simp] theorem State.resizeBanks_dayHigh (s : State) (n : Nat) : (s.resizeBanks n).dayHigh = s.dayHigh := rfl
@[simp] theorem State.resizeBanks_bankCount (s : State) (n : Nat) : (s.resizeBanks n).bankCount = n := rfl
@[simp] theorem State.resizeBanks_banks (s : State) (n : Nat) : (s.resizeBanks n).banks = s.banks.below (n * bankSize) := rfl
@[simp] theorem State.resizeBanks_fill (s : State) (n : Nat) : (s.resizeBanks n).fill = resize s.fill n 0 := rfl
@[simp] theorem State.resizeBanks_currentBank (s : State) (n : Nat) : (s.resizeBanks n).currentBank = s.currentBank := rfl
@[simp] theorem State.resizeBanks_handles (s : State) (n : Nat) : (s.resizeBanks n).handles = s.handles := rfl
@[simp] theorem State.resizeBanks_fault (s : State) (n : Nat) : (s.resizeBanks n).fault = s.fault := rfl
@[simp] theorem State.resizeBanks_cfg (s : State) (n : Nat) : (s.resizeBanks n).cfg = s.cfg := rfl
@[simp] theorem State.resizeBanks_origins (s : State) (n : Nat) : (s.resizeBanks n).origins = resize s.origins n (.added s.draws) := rfl
@[simp] theorem State.resizeBanks_draws (s : State) (n : Nat) : (s.resizeBanks n).draws = s.draws := rfl
@[simp] theorem State.resizeBanks_pending (s : State) (n : Nat) : (s.resizeBanks n).pending = s.pending := rfl
@[simp] theorem State.resizeBanks_answers (s : State) (n : Nat) : (s.resizeBanks n).answers = s.answers := rfl
@[simp] theorem State.resizeBanks_response (s : State) (n : Nat) : (s.resizeBanks n).response = s.response := rfl

/-! ### placeData -/

@[simp] theorem State.placeData_IF (s : State) (tb : BitVec 16) (name : Name) (bytes : List Byte) : (s.placeData tb name bytes).IF = s.IF := rfl
@[simp] theorem State.placeData_IE (s : State) (tb : BitVec 16) (name : Name) (bytes : List Byte) : (s.placeData tb name bytes).IE = s.IE := rfl
@[simp] theorem State.placeData_IME (s : State) (tb : BitVec 16) (name : Name) (bytes : List Byte) : (s.placeData tb name bytes).IME = s.IME := rfl
@[simp] theorem State.placeData_handlers (s : State) (tb : BitVec 16) (name : Name) (bytes : List Byte) : (s.placeData tb name bytes).handlers = s.handlers := rfl
@[simp] theorem State.placeData_svc (s : State) (tb : BitVec 16) (name : Name) (bytes : List Byte) : (s.placeData tb name bytes).svc = s.svc := rfl
@[simp] theorem State.placeData_divider (s : State) (tb : BitVec 16) (name : Name) (bytes : List Byte) : (s.placeData tb name bytes).divider = s.divider := rfl
@[simp] theorem State.placeData_oldDivider (s : State) (tb : BitVec 16) (name : Name) (bytes : List Byte) : (s.placeData tb name bytes).oldDivider = s.oldDivider := rfl
@[simp] theorem State.placeData_counter (s : State) (tb : BitVec 16) (name : Name) (bytes : List Byte) : (s.placeData tb name bytes).counter = s.counter := rfl
@[simp] theorem State.placeData_modulo (s : State) (tb : BitVec 16) (name : Name) (bytes : List Byte) : (s.placeData tb name bytes).modulo = s.modulo := rfl
@[simp] theorem State.placeData_clockSpeed (s : State) (tb : BitVec 16) (name : Name) (bytes : List Byte) : (s.placeData tb name bytes).clockSpeed = s.clockSpeed := rfl
@[simp] theorem State.placeData_enabled (s : State) (tb : BitVec 16) (name : Name) (bytes : List Byte) : (s.placeData tb name bytes).enabled = s.enabled := rfl
@[simp] theorem State.placeData_selectButtons (s : State) (tb : BitVec 16) (name : Name) (bytes : List Byte) : (s.placeData tb name bytes).selectButtons = s.selectButtons := rfl
@[simp] theorem State.placeData_selectDPad (s : State) (tb : BitVec 16) (name : Name) (bytes : List Byte) : (s.placeData tb name bytes).selectDPad = s.selectDPad := rfl
@[simp] theorem State.placeData_buttons (s : State) (tb : BitVec 16) (name : Name) (bytes : List Byte) : (s.placeData tb name bytes).buttons = s.buttons := rfl
@[simp] theorem State.placeData_dPad (s : State) (tb : BitVec 16) (name : Name) (bytes : List Byte) : (s.placeData tb name bytes).dPad = s.dPad := rfl
@[simp] theorem State.placeData_seconds (s : State) (tb : BitVec 16) (name : Name) (bytes : List Byte) : (s.placeData tb name bytes).seconds = s.seconds := rfl
@[simp] theorem State.placeData_minutes (s : State) (tb : BitVec 16) (name : Name) (bytes : List Byte) : (s.placeData tb name bytes).minutes = s.minutes := rfl
@[simp] theorem State.placeData_hours (s : State) (tb : BitVec 16) (name : Name) (bytes : List Byte) : (s.placeData tb name bytes).hours = s.hours := rfl
@[simp] theorem State.placeData_dayLow (s : State) (tb : BitVec 16) (name : Name) (bytes : List Byte) : (s.placeData tb name bytes).dayLow = s.dayLow := rfl
@[simp] theorem State.placeData_dayHigh (s : State) (tb : BitVec 16) (name : Name) (bytes : List Byte) : (s.placeData tb name bytes).dayHigh = s.dayHigh := rfl
@[simp] theorem State.placeData_bankCount (s : State) (tb : BitVec 16) (name : Name) (bytes : List Byte) : (s.placeData tb name bytes).bankCount = s.bankCount := rfl
@[simp] theorem State.placeData_banks (s : State) (tb : BitVec 16) (name : Name) (bytes : List Byte) : (s.placeData tb name bytes).banks = s.banks.write (bankKey tb.toNat (s.fillOf tb.toNat)) bytes := rfl
@[simp] theorem State.placeData_fill (s : State) (tb : BitVec 16) (name : Name) (bytes : List Byte) : (s.placeData tb name bytes).fill = s.fill.set tb.toNat (s.fillOf tb.toNat + bytes.length) := rfl
@[simp] theorem State.placeData_currentBank (s : State) (tb : BitVec 16) (name : Name) (bytes : List Byte) : (s.placeData tb name bytes).currentBank = s.currentBank := rfl
@[simp] theorem State.placeData_handles (s : State) (tb : BitVec 16) (name : Name) (bytes : List Byte) : (s.placeData tb name bytes).handles = s.handles.insert name ⟨bytes.length, s.fillOf tb.toNat, tb⟩ := rfl
@[simp] theorem State.placeData_fault (s : State) (tb : BitVec 16) (name : Name) (bytes : List Byte) : (s.placeData tb name bytes).fault = s.fault := rfl
@[simp] theorem State.placeData_cfg (s : State) (tb : BitVec 16) (name : Name) (bytes : List Byte) : (s.placeData tb name bytes).cfg = s.cfg := rfl
@[simp] theorem State.placeData_origins (s : State) (tb : BitVec 16) (name : Name) (bytes : List Byte) : (s.placeData tb name bytes).origins = s.origins := rfl
@[simp] theorem State.placeData_draws (s : State) (tb : BitVec 16) (name : Name) (bytes : List Byte) : (s.placeData tb name bytes).draws = s.draws := rfl
@[simp] theorem State.placeData_pending (s : State) (tb : BitVec 16) (name : Name) (bytes : List Byte) : (s.placeData tb name bytes).pending = s.pending := rfl
@[simp] theorem State.placeData_answers (s : State) (tb : BitVec 16) (name : Name) (bytes : List Byte) : (s.placeData tb name bytes).answers = s.answers := rfl
@[simp] theorem State.placeData_response (s : State) (tb : BitVec 16) (name : Name) (bytes : List Byte) : (s.placeData tb name bytes).response = some (.handle ⟨bytes.length, s.fillOf tb.toNat, tb⟩) := rfl

/-! ### acknowledge -/

@[simp] theorem State.acknowledge_IF (s : State) (k : Kind) : (s.acknowledge k).IF = setBit s.IF k.val false := by
  unfold State.acknowledge; cases s.hasHandler k <;> rfl
@[simp] theorem State.acknowledge_IE (s : State) (k : Kind) : (s.acknowledge k).IE = s.IE := by
  unfold State.acknowledge; cases s.hasHandler k <;> rfl
@[simp] theorem State.acknowledge_IME (s : State) (k : Kind) : (s.acknowledge k).IME = false := by
  unfold State.acknowledge; cases s.hasHandler k <;> rfl
@[simp] theorem State.acknowledge_handlers (s : State) (k : Kind) : (s.acknowledge k).handlers = s.handlers := by
  unfold State.acknowledge; cases s.hasHandler k <;> rfl
@[simp] theorem State.acknowledge_svc (s : State) (k : Kind) : (s.acknowledge k).svc = if s.hasHandler k then .inHandler k else s.svc := by
  unfold State.acknowledge; cases s.hasHandler k <;> rfl
@[simp] theorem State.acknowledge_divider (s : State) (k : Kind) : (s.acknowledge k).divider = s.divider := by
  unfold State.acknowledge; cases s.hasHandler k <;> rfl
@[simp] theorem State.acknowledge_oldDivider (s : State) (k : Kind) : (s.acknowledge k).oldDivider = s.oldDivider := by
  unfold State.acknowledge; cases s.hasHandler k <;> rfl
@[simp] theorem State.acknowledge_counter (s : State) (k : Kind) : (s.acknowledge k).counter = s.counter := by
  unfold State.acknowledge; cases s.hasHandler k <;> rfl
@[simp] theorem State.acknowledge_modulo (s : State) (k : Kind) : (s.acknowledge k).modulo = s.modulo := by
  unfold State.acknowledge; cases s.hasHandler k <;> rfl
@[simp] theorem State.acknowledge_clockSpeed (s : State) (k : Kind) : (s.acknowledge k).clockSpeed = s.clockSpeed := by
  unfold State.acknowledge; cases s.hasHandler k <;> rfl
@[simp] theorem State.acknowledge_enabled (s : State) (k : Kind) : (s.acknowledge k).enabled = s.enabled := by
  unfold State.acknowledge; cases s.hasHandler k <;> rfl
@[simp] theorem State.acknowledge_selectButtons (s : State) (k : Kind) : (s.acknowledge k).selectButtons = s.selectButtons := by
  unfold State.acknowledge; cases s.hasHandler k <;> rfl
@[simp] theorem State.acknowledge_selectDPad (s : State) (k : Kind) : (s.acknowledge k).selectDPad = s.selectDPad := by
  unfold State.acknowledge; cases s.hasHandler k <;> rfl
@[simp] theorem State.acknowledge_buttons (s : State) (k : Kind) : (s.acknowledge k).buttons = s.buttons := by
  unfold State.acknowledge; cases s.hasHandler k <;> rfl
@[simp] theorem State.acknowledge_dPad (s : State) (k : Kind) : (s.acknowledge k).dPad = s.dPad := by
  unfold State.acknowledge; cases s.hasHandler k <;> rfl
@[simp] theorem State.acknowledge_seconds (s : State) (k : Kind) : (s.acknowledge k).seconds = s.seconds := by
  unfold State.acknowledge; cases s.hasHandler k <;> rfl
@[simp] theorem State.acknowledge_minutes (s : State) (k : Kind) : (s.acknowledge k).minutes = s.minutes := by
  unfold State.acknowledge; cases s.hasHandler k <;> rfl
@[simp] theorem State.acknowledge_hours (s : State) (k : Kind) : (s.acknowledge k).hours = s.hours := by
  unfold State.acknowledge; cases s.hasHandler k <;> rfl
@[simp] theorem State.acknowledge_dayLow (s : State) (k : Kind) : (s.acknowledge k).dayLow = s.dayLow := by
  unfold State.acknowledge; cases s.hasHandler k <;> rfl
@[simp] theorem State.acknowledge_dayHigh (s : State) (k : Kind) : (s.acknowledge k).dayHigh = s.dayHigh := by
  unfold State.acknowledge; cases s.hasHandler k <;> rfl
@[simp] theorem State.acknowledge_bankCount (s : State) (k : Kind) : (s.acknowledge k).bankCount = s.bankCount := by
  unfold State.acknowledge; cases s.hasHandler k <;> rfl
@[simp] theorem State.acknowledge_banks (s : State) (k : Kind) : (s.acknowledge k).banks = s.banks := by
  unfold State.acknowledge; cases s.hasHandler k <;> rfl
@[simp] theorem State.acknowledge_fill (s : State) (k : Kind) : (s.acknowledge k).fill = s.fill := by
  unfold State.acknowledge; cases s.hasHandler k <;> rfl
@[simp] theorem State.acknowledge_currentBank (s : State) (k : Kind) : (s.acknowledge k).currentBank = s.currentBank := by
  unfold State.acknowledge; cases s.hasHandler k <;> rfl
@[simp] theorem State.acknowledge_handles (s : State) (k : Kind) : (s.acknowledge k).handles = s.handles := by
  unfold State.acknowledge; cases s.hasHandler k <;> rfl
@[simp] theorem State.acknowledge_fault (s : State) (k : Kind) : (s.acknowledge k).fault = s.fault := by
  unfold State.acknowledge; cases s.hasHandler k <;> rfl
@[simp] theorem State.acknowledge_cfg (s : State) (k : Kind) : (s.acknowledge k).cfg = s.cfg := by
  unfold State.acknowledge; cases s.hasHandler k <;> rfl
@[simp] theorem State.acknowledge_origins (s : State) (k : Kind) : (s.acknowledge k).origins = s.origins := by
  unfold State.acknowledge; cases s.hasHandler k <;> rfl
@[simp] theorem State.acknowledge_draws (s : State) (k : Kind) : (s.acknowledge k).draws = s.draws := by
  unfold State.acknowledge; cases s.hasHandler k <;> rfl
@[simp] theorem State.acknowledge_pending (s : State) (k : Kind) : (s.acknowledge k).pending = s.pending := by
  unfold State.acknowledge; cases s.hasHandler k <;> rfl
@[simp] theorem State.acknowledge_answers (s : State) (k : Kind) : (s.acknowledge k).answers = s.answers := by
  unfold State.acknowledge; cases s.hasHandler k <;> rfl
@[simp] theorem State.acknowledge_response (s : State) (k : Kind) : (s.acknowledge k).response = if s.hasHandler k then some .pending else some (.service .NONE) := by
  unfold State.acknowledge; cases s.hasHandler k <;> rfl

/-! ### setGroupField -/

@[simp] theorem State.setGroupField_IF (s : State) (g : Group) (v : BitVec 4) : (s.setGroupField g v).IF = s.IF := by
  cases g <;> rfl
@[simp] theorem State.setGroupField_IE (s : State) (g : Group) (v : BitVec 4) : (s.setGroupField g v).IE = s.IE := by
  cases g <;> rfl
@[simp] theorem State.setGroupField_IME (s : State) (g : Group) (v : BitVec 4) : (s.setGroupField g v).IME = s.IME := by
  cases g <;> rfl
@[simp] theorem State.setGroupField_handlers (s : State) (g : Group) (v : BitVec 4) : (s.setGroupField g v).handlers = s.handlers := by
  cases g <;> rfl
@[simp] theorem State.setGroupField_svc (s : State) (g : Group) (v : BitVec 4) : (s.setGroupField g v).svc = s.svc := by
  cases g <;> rfl
@[simp] theorem State.setGroupField_divider (s : State) (g : Group) (v : BitVec 4) : (s.setGroupField g v).divider = s.divider := by
  cases g <;> rfl
@[simp] theorem State.setGroupField_oldDivider (s : State) (g : Group) (v : BitVec 4) : (s.setGroupField g v).oldDivider = s.oldDivider := by
  cases g <;> rfl
@[simp] theorem State.setGroupField_counter (s : State) (g : Group) (v : BitVec 4) : (s.setGroupField g v).counter = s.counter := by
  cases g <;> rfl
@[simp] theorem State.setGroupField_modulo (s : State) (g : Group) (v : BitVec 4) : (s.setGroupField g v).modulo = s.modulo := by
  cases g <;> rfl
@[simp] theorem State.setGroupField_clockSpeed (s : State) (g : Group) (v : BitVec 4) : (s.setGroupField g v).clockSpeed = s.clockSpeed := by
  cases g <;> rfl
@[simp] theorem State.setGroupField_enabled (s : State) (g : Group) (v : BitVec 4) : (s.setGroupField g v).enabled = s.enabled := by
  cases g <;> rfl
@[simp] theorem State.setGroupField_selectButtons (s : State) (g : Group) (v : BitVec 4) : (s.setGroupField g v).selectButtons = s.selectButtons := by
  cases g <;> rfl
@[simp] theorem State.setGroupField_selectDPad (s : State) (g : Group) (v : BitVec 4) : (s.setGroupField g v).selectDPad = s.selectDPad := by
  cases g <;> rfl
@[simp] theorem State.setGroupField_buttons (s : State) (g : Group) (v : BitVec 4) : (s.setGroupField g v).buttons = if g = .buttons then v else s.buttons := by
  cases g <;> rfl
@[simp] theorem State.setGroupField_dPad (s : State) (g : Group) (v : BitVec 4) : (s.setGroupField g v).dPad = if g = .dPad then v else s.dPad := by
  cases g <;> rfl
@[simp] theorem State.setGroupField_seconds (s : State) (g : Group) (v : BitVec 4) : (s.setGroupField g v).seconds = s.seconds := by
  cases g <;> rfl
@[simp] theorem State.setGroupField_minutes (s : State) (g : Group) (v : BitVec 4) : (s.setGroupField g v).minutes = s.minutes := by
  cases g <;> rfl
@[simp] theorem State.setGroupField_hours (s : State) (g : Group) (v : BitVec 4) : (s.setGroupField g v).hours = s.hours := by
  cases g <;> rfl
@[simp] theorem State.setGroupField_dayLow (s : State) (g : Group) (v : BitVec 4) : (s.setGroupField g v).dayLow = s.dayLow := by
  cases g <;> rfl
@[simp] theorem State.setGroupField_dayHigh (s : State) (g : Group) (v : BitVec 4) : (s.setGroupField g v).dayHigh = s.dayHigh := by
  cases g <;> rfl
@[simp] theorem State.setGroupField_bankCount (s : State) (g : Group) (v : BitVec 4) : (s.setGroupField g v).bankCount = s.bankCount := by
  cases g <;> rfl
@[simp] theorem State.setGroupField_banks (s : State) (g : Group) (v : BitVec 4) : (s.setGroupField g v).banks = s.banks := by
  cases g <;> rfl
@[simp] theorem State.setGroupField_fill (s : State) (g : Group) (v : BitVec 4) : (s.setGroupField g v).fill = s.fill := by
  cases g <;> rfl
@[simp] theorem State.setGroupField_currentBank (s : State) (g : Group) (v : BitVec 4) : (s.setGroupField g v).currentBank = s.currentBank := by
  cases g <;> rfl
@[simp] theorem State.setGroupField_handles (s : State) (g : Group) (v : BitVec 4) : (s.setGroupField g v).handles = s.handles := by
  cases g <;> rfl
@[simp] theorem State.setGroupField_fault (s : State) (g : Group) (v : BitVec 4) : (s.setGroupField g v).fault = s.fault := by
  cases g <;> rfl
@[simp] theorem State.setGroupField_cfg (s : State) (g : Group) (v : BitVec 4) : (s.setGroupField g v).cfg = s.cfg := by
  cases g <;> rfl
@[simp] theorem State.setGroupField_origins (s : State) (g : Group) (v : BitVec 4) : (s.setGroupField g v).origins = s.origins := by
  cases g <;> rfl
@[simp] theorem State.setGroupField_draws (s : State) (g : Group) (v : BitVec 4) : (s.setGroupField g v).draws = s.draws := by
  cases g <;> rfl
@[simp] theorem State.setGroupField_pending (s : State) (g : Group) (v : BitVec 4) : (s.setGroupField g v).pending = s.pending := by
  cases g <;> rfl
@[simp] theorem State.setGroupField_answers (s : State) (g : Group) (v : BitVec 4) : (s.setGroupField g v).answers = s.answers := by
  cases g <;> rfl
@[simp] theorem State.setGroupField_response (s : State) (g : Group) (v : BitVec 4) : (s.setGroupField g v).response = s.response := by
  cases g <;> rfl

end Sys2Proof.Machine
end

