-- ==== Sys2Proof/Laws/Exec.lean ====
section
/-! SUPPORT. What an instruction can do, said once: every meaning is the prelude of R331 over one effect, and the shared
operations (`loadData`, `acknowledge`, `tickTimer`, `readWindow`) by their cases. -/

namespace Sys2Proof.Machine

theorem transact_of_fault {s : State} {code : FaultCode} (h : s.fault = some code) (body : State → State) :
    transact s body = .next (s.respond (.faulted code)) := by simp [transact, h]

theorem transact_of_running {s : State} (h : s.fault = none) (body : State → State) :
    transact s body = .next (body s) := by simp [transact, h]

theorem transact_eq_next_iff (s t : State) (body : State → State) :
    transact s body = .next t ↔
      (∃ code, s.fault = some code ∧ t = s.respond (.faulted code)) ∨ (s.fault = none ∧ t = body s) := by
  cases h : s.fault <;> simp [transact, h, eq_comm]

/-- The effect of an instruction on a state that is not faulted. -/
def effect : Instr → State → State
  | .tick, s => s.tickTimer.respond .ok
  | .req k, s => withKind k s fun s => (s.requestInterrupt k).respond .ok
  | .cancel k, s => withKind k s fun s => (s.cancelInterrupt k).respond .ok
  | .setie k f, s => withKind k s fun s => { s with IE := setBit s.IE k.val f, response := some .ok }
  | .setime f, s => { s with IME := f, response := some .ok }
  | .service, s =>
    if s.svc ≠ .idle then s.raise .reentrantService
    else if !s.IME then s.respond (.service .NONE)
    else match s.lowestRequesting with
      | none => s.respond (.service .NONE)
      | some k => s.acknowledge k
  | .reti, s => s.returnFromInterrupt.respond .ok
  | .sethandler k p, s => withKind k s fun s => { s with handlers := s.handlers.set k.val p, response := some .ok }
  | .hret r, s => if s.svc = .idle then s.raise .illegalOperation else s.endHandler r
  | .press g l, s => (s.pressButton g l).respond .ok
  | .release g l, s => (s.setGroupField g (setBit (s.groupField g) l.val true)).respond .ok
  | .latch, s => s.latchRtc.respond .ok
  | .setbankcount n, s =>
    if n < 1 ∨ 65536 < n then s.raise .invalidBankCount
    else if !s.answers.alloc then s.fail .allocFail
    else (s.resizeBanks n).respond .ok
  | .setbank n, s => { s with currentBank := n, response := some .ok }
  | .load f name bytes, s => s.loadData f name bytes
  | .loadfile f name _, s =>
    match s.answers.file with
    | none => s.fail .fileError
    | some bytes => s.loadData f name bytes
  | .gotoHandle h, s =>
    if s.bankCount ≤ h.bank.toNat then s.fail .bankOutOfRange
    else { s with currentBank := h.bank, response := some .ok }
  | .readbyte a, s => if 0x8000 ≤ a.toNat then s.raise .addressOutOfWindow else s.readWindow a
  | .lookup name, s =>
    match s.handles.find name with
    | some h => s.respond (.handle h)
    | none => s.respond .absent
  | .rdRom0 a, s => s.respond (.byte (s.bankByte 0 a.toNat))
  | .rdRomx a, s =>
    if s.bankCount ≤ s.currentBank.toNat then s.fail .bankUnmapped
    else s.respond (.byte (s.bankByte s.currentBank.toNat a.toNat))
  | .rdIf, s => s.respond (.byte s.IF)
  | .wrIf v, s => { s with IF := v, response := some .ok }
  | .rdIe, s => s.respond (.byte s.IE)
  | .wrIe v, s => { s with IE := v, response := some .ok }
  | .rdDiv, s => s.respond (.byte (s.divider.extractLsb' 8 8))
  | .wrDiv _, s => { s with divider := 0x0000#16, response := some .ok }
  | .rdTima, s => s.respond (.byte s.counter)
  | .wrTima v, s => { s with counter := v, response := some .ok }
  | .rdTma, s => s.respond (.byte s.modulo)
  | .wrTma v, s => { s with modulo := v, response := some .ok }
  | .rdTac, s => s.respond (.byte s.tacByte)
  | .wrTac v, s => { s with clockSpeed := v.extractLsb' 0 2, enabled := v.getLsbD 2, response := some .ok }
  | .rdJoyp, s => s.respond (.byte s.joypByte)
  | .wrJoyp v, s => { s with selectButtons := !v.getLsbD 5, selectDPad := !v.getLsbD 4, response := some .ok }
  | .rdRtcS, s => s.respond (.byte s.seconds)
  | .rdRtcM, s => s.respond (.byte s.minutes)
  | .rdRtcH, s => s.respond (.byte s.hours)
  | .rdRtcDl, s => s.respond (.byte s.dayLow)
  | .rdRtcDh, s => s.respond (.byte s.dayHigh)
  | .rdRtcLatch, s => s.respond (.byte (Config.drawLatchRead s.draws))
  | .wrRtcLatch _, s => s.latchRtc.respond .ok
  | .rdBankHi, s => s.respond (.byte (Config.drawBankHiRead s.draws))
  | .wrBankHi v, s => { s with currentBank := v ++ s.currentBank.extractLsb' 0 8, response := some .ok }
  | .rdBankLo, s => s.respond (.byte (Config.drawBankLoRead s.draws))
  | .wrBankLo v, s => { s with currentBank := s.currentBank.extractLsb' 8 8 ++ v, response := some .ok }
  | .wrRom0 _ _, s | .wrRomx _ _, s | .wrRtcS _, s | .wrRtcM _, s | .wrRtcH _, s | .wrRtcDl _, s | .wrRtcDh _, s =>
    s.raise .readOnlyWrite
  | .rdUnmapped _, s | .wrUnmapped _ _, s => s.raise .unmappedAddress

/-- Every meaning is the prelude over its effect. -/
theorem exec_eq_transact (i : Instr) (s : State) : exec i s = transact s (effect i) := by cases i <;> rfl

theorem exec_of_running {s : State} (h : s.fault = none) (i : Instr) : exec i s = .next (effect i s) := by
  rw [exec_eq_transact, transact_of_running h]

/-- The inversion of `exec`: a next state is the answer of a faulted state, or the instruction's effect. -/
theorem exec_eq_next_iff (i : Instr) (s t : State) :
    exec i s = .next t ↔
      (∃ code, s.fault = some code ∧ t = s.respond (.faulted code)) ∨ (s.fault = none ∧ t = effect i s) := by
  rw [exec_eq_transact, transact_eq_next_iff]

/-- What a transaction on a kind can do (R98). -/
theorem withKind_cases (k : Kind) (s : State) (body : State → State) :
    (s.cfg.intKindCount ≤ k.val ∧ withKind k s body = s.raise .invalidKind) ∨
      (k.val < s.cfg.intKindCount ∧ withKind k s body = body s) := by
  unfold withKind
  by_cases h : s.cfg.intKindCount ≤ k.val
  · exact .inl ⟨h, by simp [h]⟩
  · exact .inr ⟨by omega, by simp [h]⟩

/-- What a load can do (R264, R265): fault on the name, fail in one of four ways, or place its data. -/
theorem loadData_cases (s : State) (f : Bool) (name : Name) (bytes : List Byte) :
    (validName name = false ∧ s.loadData f name bytes = s.raise .invalidName) ∨
    (validName name = true ∧ (s.handles.find name).isSome = true ∧
      s.loadData f name bytes = s.respond (.fail .duplicateName)) ∨
    (validName name = true ∧ s.handles.find name = none ∧ s.bankCount ≤ (s.loadBank f).toNat ∧
      s.loadData f name bytes = s.respond (.fail .bankOutOfRange)) ∨
    (validName name = true ∧ s.handles.find name = none ∧ (s.loadBank f).toNat < s.bankCount ∧
      bankSize < s.fillOf (s.loadBank f).toNat + bytes.length ∧
      s.loadData f name bytes = s.respond (.fail .noSpace)) ∨
    (validName name = true ∧ s.handles.find name = none ∧ (s.loadBank f).toNat < s.bankCount ∧
      s.fillOf (s.loadBank f).toNat + bytes.length ≤ bankSize ∧ s.answers.alloc = false ∧
      s.loadData f name bytes = s.respond (.fail .allocFail)) ∨
    (validName name = true ∧ s.handles.find name = none ∧ (s.loadBank f).toNat < s.bankCount ∧
      s.fillOf (s.loadBank f).toNat + bytes.length ≤ bankSize ∧ s.answers.alloc = true ∧
      s.loadData f name bytes = s.placeData (s.loadBank f) name bytes) := by
  unfold State.loadData
  by_cases h1 : validName name = true
  · by_cases h2 : (s.handles.find name).isSome = true
    · exact .inr (.inl ⟨h1, h2, by simp [h1, h2, State.fail]⟩)
    · have h2' : s.handles.find name = none := by simpa using h2
      by_cases h3 : s.bankCount ≤ (s.loadBank f).toNat
      · exact .inr (.inr (.inl ⟨h1, h2', h3, by simp [h1, h2', h3, State.fail]⟩))
      · by_cases h4 : bankSize < s.fillOf (s.loadBank f).toNat + bytes.length
        · exact .inr (.inr (.inr (.inl ⟨h1, h2', by omega, h4, by simp [h1, h2', h3, h4, State.fail]⟩)))
        · by_cases h5 : s.answers.alloc = true
          · exact .inr (.inr (.inr (.inr (.inr
              ⟨h1, h2', by omega, by omega, h5, by simp [h1, h2', h3, h4, h5]⟩))))
          · have h5' : s.answers.alloc = false := by simpa using h5
            exact .inr (.inr (.inr (.inr (.inl
              ⟨h1, h2', by omega, by omega, h5', by simp [h1, h2', h3, h4, h5', State.fail]⟩))))
  · exact .inl ⟨by simpa using h1, by simp [h1]⟩

/-- What a tick can do (R160). -/
theorem tickTimer_cases (s : State) :
    (s.enabled = true ∧ fallingEdge s.divider (s.divider + 1#16) (timerBit s.clockSpeed) = true ∧
      s.counter = 0xFF#8 ∧ s.tickTimer = { s with
        oldDivider := s.divider, divider := s.divider + 1#16, counter := s.modulo,
        IF := setBit s.IF s.cfg.kindTimer.val true }) ∨
    (s.enabled = true ∧ fallingEdge s.divider (s.divider + 1#16) (timerBit s.clockSpeed) = true ∧
      s.counter ≠ 0xFF#8 ∧ s.tickTimer = { s with
        oldDivider := s.divider, divider := s.divider + 1#16, counter := s.counter + 1#8 }) ∨
    (¬ (s.enabled = true ∧ fallingEdge s.divider (s.divider + 1#16) (timerBit s.clockSpeed) = true) ∧
      s.tickTimer = { s with oldDivider := s.divider, divider := s.divider + 1#16 }) := by
  by_cases h : s.enabled = true ∧ fallingEdge s.divider (s.divider + 1#16) (timerBit s.clockSpeed) = true
  · by_cases hc : s.counter = 0xFF#8
    · exact .inl ⟨h.1, h.2, hc, by simp [State.tickTimer, h, State.clockCounter, hc, State.requestInterrupt]⟩
    · exact .inr (.inl ⟨h.1, h.2, hc, by simp [State.tickTimer, h, State.clockCounter, hc]⟩)
  · refine .inr (.inr ⟨h, ?_⟩)
    have h' : (s.enabled && fallingEdge s.divider (s.divider + 1#16) (timerBit s.clockSpeed)) = false := by
      rw [Bool.eq_false_iff]; simpa using h
    simp [State.tickTimer, h']

/-- What a press can do (R202). -/
theorem pressButton_cases (s : State) (g : Group) (l : Line) :
    ((s.groupField g).getLsbD l.val = false ∧ s.pressButton g l = s) ∨
    ((s.groupField g).getLsbD l.val = true ∧ s.selected g = true ∧ s.pressButton g l =
      (s.setGroupField g (setBit (s.groupField g) l.val false)).requestInterrupt s.cfg.kindJoypad) ∨
    ((s.groupField g).getLsbD l.val = true ∧ s.selected g = false ∧
      s.pressButton g l = s.setGroupField g (setBit (s.groupField g) l.val false)) := by
  unfold State.pressButton
  cases h1 : (s.groupField g).getLsbD l.val <;> cases h2 : s.selected g <;> simp

/-- What a latch can do (R230). -/
theorem latchRtc_cases (s : State) :
    (s.cfg.rtcDerive.derive s.answers.wall = s.rtcFields ∧ s.latchRtc = s) ∨
    (s.cfg.rtcDerive.derive s.answers.wall ≠ s.rtcFields ∧ s.latchRtc =
      (s.setRtcFields (s.cfg.rtcDerive.derive s.answers.wall)).requestInterrupt s.cfg.kindRtc) := by
  unfold State.latchRtc
  by_cases h : s.cfg.rtcDerive.derive s.answers.wall = s.rtcFields
  · exact .inl ⟨h, by rw [h]; simp [State.setRtcFields, State.rtcFields]⟩
  · exact .inr ⟨h, by simp [h]⟩

/-- What a window read can do (R63). -/
theorem readWindow_cases (s : State) (a : Addr) :
    (a.toNat < 0x4000 ∧ s.readWindow a = s.respond (.byte (s.bankByte 0 a.toNat))) ∨
    (0x4000 ≤ a.toNat ∧ s.currentBank.toNat < s.bankCount ∧
      s.readWindow a = s.respond (.byte (s.bankByte s.currentBank.toNat (a.toNat - 0x4000)))) ∨
    (0x4000 ≤ a.toNat ∧ s.bankCount ≤ s.currentBank.toNat ∧ s.readWindow a = s.respond (.fail .bankUnmapped)) := by
  unfold State.readWindow State.translate
  by_cases h1 : a.toNat < 0x4000
  · exact .inl ⟨h1, by simp [h1]⟩
  · by_cases h2 : s.currentBank.toNat < s.bankCount
    · exact .inr (.inl ⟨by omega, h2, by simp [h1, h2]⟩)
    · exact .inr (.inr ⟨by omega, by omega, by simp [h1, h2, State.fail]⟩)

/-- What SERVICE can do (R126). -/
theorem service_cases (s : State) :
    (s.svc ≠ .idle ∧ effect .service s = s.raise .reentrantService) ∨
    (s.svc = .idle ∧ (s.IME = false ∨ s.lowestRequesting = none) ∧
      effect .service s = s.respond (.service .NONE)) ∨
    (∃ k, s.svc = .idle ∧ s.IME = true ∧ s.lowestRequesting = some k ∧ effect .service s = s.acknowledge k) := by
  by_cases h : s.svc = .idle
  · cases hi : s.IME with
    | false => exact .inr (.inl ⟨h, .inl rfl, by simp [effect, h, hi]⟩)
    | true =>
      cases hl : s.lowestRequesting with
      | none => exact .inr (.inl ⟨h, .inr rfl, by simp [effect, h, hi, hl]⟩)
      | some k => exact .inr (.inr ⟨k, h, rfl, rfl, by simp [effect, h, hi, hl]⟩)
  · exact .inl ⟨h, by simp [effect, h]⟩

/-- What one transaction can do (R96, R331). -/
theorem perform_cases (tx : Transaction) (s : State) :
    (∃ i, decode s.cfg tx.word tx.payload = .ok i ∧ perform tx s = exec i (s.accept tx)) ∨
    (∃ e, decode s.cfg tx.word tx.payload = .error e ∧
      perform tx s = transact (s.accept tx) (fun t => t.raise .illegalOperation)) := by
  unfold perform
  cases decode s.cfg tx.word tx.payload with
  | ok i => exact .inl ⟨i, rfl, rfl⟩
  | error e => exact .inr ⟨e, rfl, rfl⟩

end Sys2Proof.Machine
end

