-- ==== Sys2Proof/Laws/PerInstr.lean ====
section
/-! SUPPORT. Statements made for every instruction. `WordMatchesRow`: the encoder's word agrees with the instruction's row
of spec/opcode_table.json on every bit the row fixes, whatever the operands and the configuration. -/

namespace Sys2Proof.Laws.WordMatchesRow

/-- The mask and the match of the instruction's row of spec/opcode_table.json. -/
def row : Instr → Word × Word
  | .tick => (0xFFFFFFFF#32, 0x03000000#32)
  | .req _ => (0xFFFFFFF8#32, 0x10000000#32)
  | .cancel _ => (0xFFFFFFF8#32, 0x11000000#32)
  | .setie _ _ => (0xFFFFFF78#32, 0x12000000#32)
  | .setime _ => (0xFFFFFFFE#32, 0x13000000#32)
  | .service => (0xFFFFFFFF#32, 0x14000000#32)
  | .reti => (0xFFFFFFFF#32, 0x15000000#32)
  | .sethandler _ _ => (0xFFFFFF78#32, 0x16000000#32)
  | .hret _ => (0xFFFFFFFE#32, 0x17000000#32)
  | .press _ _ => (0xFFFFFFF8#32, 0x20000000#32)
  | .release _ _ => (0xFFFFFFF8#32, 0x21000000#32)
  | .latch => (0xFFFFFFFF#32, 0x30000000#32)
  | .setbankcount _ => (0xFF0000FF#32, 0x40000000#32)
  | .setbank _ => (0xFF0000FF#32, 0x41000000#32)
  | .load _ _ _ => (0xFFFFFFFE#32, 0x42000000#32)
  | .loadfile _ _ _ => (0xFFFFFFFE#32, 0x43000000#32)
  | .gotoHandle _ => (0xFFFFFFFF#32, 0x44000000#32)
  | .readbyte _ => (0xFF0000FF#32, 0x45000000#32)
  | .lookup _ => (0xFFFFFFFF#32, 0x46000000#32)
  | .rdRom0 _ => (0xFFC000FF#32, 0x01000000#32)
  | .wrRom0 _ _ => (0xFFC00000#32, 0x02000000#32)
  | .rdRomx _ => (0xFFC000FF#32, 0x01400000#32)
  | .wrRomx _ _ => (0xFFC00000#32, 0x02400000#32)
  | .rdIf => (0xFF0000FF#32, 0x01000000#32)
  | .wrIf _ => (0xFF000000#32, 0x02000000#32)
  | .rdIe => (0xFF0000FF#32, 0x01000000#32)
  | .wrIe _ => (0xFF000000#32, 0x02000000#32)
  | .rdDiv => (0xFF0000FF#32, 0x01000000#32)
  | .wrDiv _ => (0xFF000000#32, 0x02000000#32)
  | .rdTima => (0xFF0000FF#32, 0x01000000#32)
  | .wrTima _ => (0xFF000000#32, 0x02000000#32)
  | .rdTma => (0xFF0000FF#32, 0x01000000#32)
  | .wrTma _ => (0xFF000000#32, 0x02000000#32)
  | .rdTac => (0xFF0000FF#32, 0x01000000#32)
  | .wrTac _ => (0xFF000000#32, 0x02000000#32)
  | .rdJoyp => (0xFF0000FF#32, 0x01000000#32)
  | .wrJoyp _ => (0xFF000000#32, 0x02000000#32)
  | .rdRtcS => (0xFF0000FF#32, 0x01000000#32)
  | .wrRtcS _ => (0xFF000000#32, 0x02000000#32)
  | .rdRtcM => (0xFF0000FF#32, 0x01000000#32)
  | .wrRtcM _ => (0xFF000000#32, 0x02000000#32)
  | .rdRtcH => (0xFF0000FF#32, 0x01000000#32)
  | .wrRtcH _ => (0xFF000000#32, 0x02000000#32)
  | .rdRtcDl => (0xFF0000FF#32, 0x01000000#32)
  | .wrRtcDl _ => (0xFF000000#32, 0x02000000#32)
  | .rdRtcDh => (0xFF0000FF#32, 0x01000000#32)
  | .wrRtcDh _ => (0xFF000000#32, 0x02000000#32)
  | .rdRtcLatch => (0xFF0000FF#32, 0x01000000#32)
  | .wrRtcLatch _ => (0xFF000000#32, 0x02000000#32)
  | .rdBankHi => (0xFF0000FF#32, 0x01000000#32)
  | .wrBankHi _ => (0xFF000000#32, 0x02000000#32)
  | .rdBankLo => (0xFF0000FF#32, 0x01000000#32)
  | .wrBankLo _ => (0xFF000000#32, 0x02000000#32)
  | .rdUnmapped _ => (0xFF0000FF#32, 0x01000000#32)
  | .wrUnmapped _ _ => (0xFF000000#32, 0x02000000#32)

def Statement (i : Instr) : Prop := ∀ c : Config, encode c i &&& (row i).1 = (row i).2

theorem addr_row (op : BitVec 8) (a : Addr) (d : Byte) :
    mkWord op a d &&& mkWord 0xFF#8 0x0000#16 0xFF#8 = mkWord op 0x0000#16 d := by
  have h : ∀ x : BitVec 8, x &&& 0xFF#8 = x := fun _ => BitVec.and_allOnes
  rw [mkWord_and, h, h, BitVec.and_zero]

theorem write_row (a : Addr) (d : Byte) : wrWord a d &&& 0xFF000000#32 = 0x02000000#32 := by
  have h := mkWord_and 0x02#8 0xFF#8 a 0x0000#16 d 0x00#8
  rw [BitVec.and_zero, BitVec.and_zero] at h
  exact h

theorem window_and (hi : BitVec 2) (a : BitVec 14) : (hi ++ a : Addr) &&& 0xC000#16 = hi ++ 0#14 := by
  have h : (hi ++ a) &&& (0b11#2 ++ 0#14) = (hi &&& 0b11#2) ++ (a &&& 0#14) := by rw [BitVec.and_append]
  rw [BitVec.and_zero] at h
  have e : hi &&& 0b11#2 = hi := BitVec.and_allOnes
  rw [e] at h
  exact h

theorem read_window_row (hi : BitVec 2) (a : BitVec 14) :
    rdWord (hi ++ a) &&& 0xFFC000FF#32 = mkWord 0x01#8 (hi ++ 0#14) 0#8 := by
  have h := mkWord_and 0x01#8 0xFF#8 (hi ++ a) 0xC000#16 0#8 0xFF#8
  rw [window_and] at h
  exact h

theorem write_window_row (hi : BitVec 2) (a : BitVec 14) (d : Byte) :
    wrWord (hi ++ a) d &&& 0xFFC00000#32 = mkWord 0x02#8 (hi ++ 0#14) 0#8 := by
  have h := mkWord_and 0x02#8 0xFF#8 (hi ++ a) 0xC000#16 d 0x00#8
  rw [window_and, BitVec.and_zero] at h
  exact h

theorem tick : Statement .tick :=
  fun _ => (by decide : mkWord 0x03#8 0#16 0#8 &&& 0xFFFFFFFF#32 = 0x03000000#32)

theorem req (k : Kind) : Statement (.req k) :=
  fun _ => (by decide : ∀ k : Kind, mkWord 0x10#8 0#16 (dK k) &&& 0xFFFFFFF8#32 = 0x10000000#32) k

theorem cancel (k : Kind) : Statement (.cancel k) :=
  fun _ => (by decide : ∀ k : Kind, mkWord 0x11#8 0#16 (dK k) &&& 0xFFFFFFF8#32 = 0x11000000#32) k

theorem setie (k : Kind) (f : Bool) : Statement (.setie k f) :=
  fun _ => (by decide : ∀ k : Kind, ∀ f : Bool, mkWord 0x12#8 0#16 (dKF k f) &&& 0xFFFFFF78#32 = 0x12000000#32) k f

theorem setime (f : Bool) : Statement (.setime f) :=
  fun _ => (by decide : ∀ f : Bool, mkWord 0x13#8 0#16 (dF f) &&& 0xFFFFFFFE#32 = 0x13000000#32) f

theorem service : Statement .service :=
  fun _ => (by decide : mkWord 0x14#8 0#16 0#8 &&& 0xFFFFFFFF#32 = 0x14000000#32)

theorem reti : Statement .reti :=
  fun _ => (by decide : mkWord 0x15#8 0#16 0#8 &&& 0xFFFFFFFF#32 = 0x15000000#32)

theorem sethandler (k : Kind) (p : Bool) : Statement (.sethandler k p) :=
  fun _ => (by decide : ∀ k : Kind, ∀ p : Bool, mkWord 0x16#8 0#16 (dKF k p) &&& 0xFFFFFF78#32 = 0x16000000#32) k p

theorem hret (r : Bool) : Statement (.hret r) :=
  fun _ => (by decide : ∀ r : Bool, mkWord 0x17#8 0#16 (dF r) &&& 0xFFFFFFFE#32 = 0x17000000#32) r

theorem press (g : Group) (l : Line) : Statement (.press g l) :=
  fun _ => (by rintro (_ | _) <;> decide : ∀ g : Group, ∀ l : Line, mkWord 0x20#8 0#16 (dJ g l) &&& 0xFFFFFFF8#32 = 0x20000000#32) g l

theorem release (g : Group) (l : Line) : Statement (.release g l) :=
  fun _ => (by rintro (_ | _) <;> decide : ∀ g : Group, ∀ l : Line, mkWord 0x21#8 0#16 (dJ g l) &&& 0xFFFFFFF8#32 = 0x21000000#32) g l

theorem latch : Statement .latch :=
  fun _ => (by decide : mkWord 0x30#8 0#16 0#8 &&& 0xFFFFFFFF#32 = 0x30000000#32)

theorem setbankcount (n : Nat) : Statement (.setbankcount n) :=
  fun _ => addr_row _ _ _

theorem setbank (n : BitVec 16) : Statement (.setbank n) :=
  fun _ => addr_row _ _ _

theorem load (f : Bool) (name : Name) (bytes : List Byte) : Statement (.load f name bytes) :=
  fun _ => (by decide : ∀ f : Bool, mkWord 0x42#8 0#16 (dF f) &&& 0xFFFFFFFE#32 = 0x42000000#32) f

theorem loadfile (f : Bool) (name : Name) (path : Name) : Statement (.loadfile f name path) :=
  fun _ => (by decide : ∀ f : Bool, mkWord 0x43#8 0#16 (dF f) &&& 0xFFFFFFFE#32 = 0x43000000#32) f

theorem gotoHandle (h : Handle) : Statement (.gotoHandle h) :=
  fun _ => (by decide : mkWord 0x44#8 0#16 0#8 &&& 0xFFFFFFFF#32 = 0x44000000#32)

theorem readbyte (a : Addr) : Statement (.readbyte a) :=
  fun _ => addr_row _ _ _

theorem lookup (name : Name) : Statement (.lookup name) :=
  fun _ => (by decide : mkWord 0x46#8 0#16 0#8 &&& 0xFFFFFFFF#32 = 0x46000000#32)

theorem rdRom0 (a : BitVec 14) : Statement (.rdRom0 a) :=
  fun _ => read_window_row _ _

theorem wrRom0 (a : BitVec 14) (v : Byte) : Statement (.wrRom0 a v) :=
  fun _ => write_window_row _ _ _

theorem rdRomx (a : BitVec 14) : Statement (.rdRomx a) :=
  fun _ => read_window_row _ _

theorem wrRomx (a : BitVec 14) (v : Byte) : Statement (.wrRomx a v) :=
  fun _ => write_window_row _ _ _

theorem rdIf : Statement .rdIf :=
  fun _ => addr_row _ _ _

theorem wrIf (v : Byte) : Statement (.wrIf v) :=
  fun _ => write_row _ _

theorem rdIe : Statement .rdIe :=
  fun _ => addr_row _ _ _

theorem wrIe (v : Byte) : Statement (.wrIe v) :=
  fun _ => write_row _ _

theorem rdDiv : Statement .rdDiv :=
  fun _ => addr_row _ _ _

theorem wrDiv (v : Byte) : Statement (.wrDiv v) :=
  fun _ => write_row _ _

theorem rdTima : Statement .rdTima :=
  fun _ => addr_row _ _ _

theorem wrTima (v : Byte) : Statement (.wrTima v) :=
  fun _ => write_row _ _

theorem rdTma : Statement .rdTma :=
  fun _ => addr_row _ _ _

theorem wrTma (v : Byte) : Statement (.wrTma v) :=
  fun _ => write_row _ _

theorem rdTac : Statement .rdTac :=
  fun _ => addr_row _ _ _

theorem wrTac (v : Byte) : Statement (.wrTac v) :=
  fun _ => write_row _ _

theorem rdJoyp : Statement .rdJoyp :=
  fun _ => addr_row _ _ _

theorem wrJoyp (v : Byte) : Statement (.wrJoyp v) :=
  fun _ => write_row _ _

theorem rdRtcS : Statement .rdRtcS :=
  fun _ => addr_row _ _ _

theorem wrRtcS (v : Byte) : Statement (.wrRtcS v) :=
  fun _ => write_row _ _

theorem rdRtcM : Statement .rdRtcM :=
  fun _ => addr_row _ _ _

theorem wrRtcM (v : Byte) : Statement (.wrRtcM v) :=
  fun _ => write_row _ _

theorem rdRtcH : Statement .rdRtcH :=
  fun _ => addr_row _ _ _

theorem wrRtcH (v : Byte) : Statement (.wrRtcH v) :=
  fun _ => write_row _ _

theorem rdRtcDl : Statement .rdRtcDl :=
  fun _ => addr_row _ _ _

theorem wrRtcDl (v : Byte) : Statement (.wrRtcDl v) :=
  fun _ => write_row _ _

theorem rdRtcDh : Statement .rdRtcDh :=
  fun _ => addr_row _ _ _

theorem wrRtcDh (v : Byte) : Statement (.wrRtcDh v) :=
  fun _ => write_row _ _

theorem rdRtcLatch : Statement .rdRtcLatch :=
  fun _ => addr_row _ _ _

theorem wrRtcLatch (v : Byte) : Statement (.wrRtcLatch v) :=
  fun _ => write_row _ _

theorem rdBankHi : Statement .rdBankHi :=
  fun _ => addr_row _ _ _

theorem wrBankHi (v : Byte) : Statement (.wrBankHi v) :=
  fun _ => write_row _ _

theorem rdBankLo : Statement .rdBankLo :=
  fun _ => addr_row _ _ _

theorem wrBankLo (v : Byte) : Statement (.wrBankLo v) :=
  fun _ => write_row _ _

theorem rdUnmapped (a : Addr) : Statement (.rdUnmapped a) :=
  fun _ => addr_row _ _ _

theorem wrUnmapped (a : Addr) (v : Byte) : Statement (.wrUnmapped a v) :=
  fun _ => write_row _ _

end Sys2Proof.Laws.WordMatchesRow
end

