-- ==== Sys2Proof/Laws/Shape.lean ====
section
/-! SUPPORT. The shapes an effect can have, for every instruction at once: which fields it may replace, and under which
conditions. A statement about what no instruction does to a field is proved from `effect_shape` by one case analysis. -/

namespace Sys2Proof.Machine

/-- `Shape s i t`: instruction `i` on the running state `s` may give `t`. -/
inductive Shape (s : State) : Instr → State → Prop
  | answer (i : Instr) (r : Response) : Shape s i (s.respond r)
  | raise (i : Instr) (code : FaultCode) : Shape s i (s.raise code)
  | tick (c f : Byte) : Shape s .tick
      { s with oldDivider := s.divider, divider := s.divider + 1#16, counter := c, IF := f, response := some .ok }
  | request (k : Kind) (f : Byte) : Shape s (.req k) { s with IF := f, response := some .ok }
  | withdraw (k : Kind) (f : Byte) : Shape s (.cancel k) { s with IF := f, response := some .ok }
  | writeIf (v : Byte) : Shape s (.wrIf v) { s with IF := v, response := some .ok }
  | setEnable (k : Kind) (b : Bool) (f : Byte) : Shape s (.setie k b) { s with IE := f, response := some .ok }
  | writeIe (v : Byte) : Shape s (.wrIe v) { s with IE := v, response := some .ok }
  | setMaster (b : Bool) : Shape s (.setime b) { s with IME := b, response := some .ok }
  | returns : Shape s .reti { s with IME := true, response := some .ok }
  | acknowledge (k : Kind) (hs : s.svc = .idle) (hm : s.IME = true) (hl : s.lowestRequesting = some k) :
      Shape s .service (s.acknowledge k)
  | register (k : Kind) (p : Bool) (hk : k.val < s.cfg.intKindCount) :
      Shape s (.sethandler k p) { s with handlers := s.handlers.set k.val p, response := some .ok }
  | endHandler (r : Bool) : Shape s (.hret r) (s.endHandler r)
  | press (g : Group) (l : Line) (v : BitVec 4) (f : Byte) :
      Shape s (.press g l) (({ s with IF := f }.setGroupField g v).respond .ok)
  | release (g : Group) (l : Line) (v : BitVec 4) : Shape s (.release g l) ((s.setGroupField g v).respond .ok)
  | latch (d : RtcFields) (f : Byte) : Shape s .latch (({ s with IF := f }.setRtcFields d).respond .ok)
  | latchWrite (v : Byte) (d : RtcFields) (f : Byte) :
      Shape s (.wrRtcLatch v) (({ s with IF := f }.setRtcFields d).respond .ok)
  | resizeBanks (n : Nat) (h1 : 1 ≤ n) (h2 : n ≤ 65536) (ha : s.answers.alloc = true) :
      Shape s (.setbankcount n) ((s.resizeBanks n).respond .ok)
  | selectBank (n : BitVec 16) : Shape s (.setbank n) { s with currentBank := n, response := some .ok }
  | gotoBank (h : Handle) : Shape s (.gotoHandle h) { s with currentBank := h.bank, response := some .ok }
  | bankHi (v : Byte) (n : BitVec 16) : Shape s (.wrBankHi v) { s with currentBank := n, response := some .ok }
  | bankLo (v : Byte) (n : BitVec 16) : Shape s (.wrBankLo v) { s with currentBank := n, response := some .ok }
  | load (f : Bool) (name : Name) (bytes : List Byte) (hn : validName name = true) (hd : s.handles.find name = none)
      (hb : (s.loadBank f).toNat < s.bankCount) (hf : s.fillOf (s.loadBank f).toNat + bytes.length ≤ bankSize) :
      Shape s (.load f name bytes) (s.placeData (s.loadBank f) name bytes)
  | loadfile (f : Bool) (name path : Name) (bytes : List Byte) (hn : validName name = true)
      (hd : s.handles.find name = none) (hb : (s.loadBank f).toNat < s.bankCount)
      (hf : s.fillOf (s.loadBank f).toNat + bytes.length ≤ bankSize) :
      Shape s (.loadfile f name path) (s.placeData (s.loadBank f) name bytes)
  | clearDivider (v : Byte) : Shape s (.wrDiv v) { s with divider := 0x0000#16, response := some .ok }
  | writeTima (v : Byte) : Shape s (.wrTima v) { s with counter := v, response := some .ok }
  | writeTma (v : Byte) : Shape s (.wrTma v) { s with modulo := v, response := some .ok }
  | writeTac (v : Byte) (c : BitVec 2) (e : Bool) :
      Shape s (.wrTac v) { s with clockSpeed := c, enabled := e, response := some .ok }
  | writeJoyp (v : Byte) (b d : Bool) :
      Shape s (.wrJoyp v) { s with selectButtons := b, selectDPad := d, response := some .ok }

/-- A load answers a failure, raises `InvalidName`, or places its data. -/
theorem loadData_shape (s : State) (f : Bool) (name : Name) (bytes : List Byte) :
    (∃ r, s.loadData f name bytes = s.respond r) ∨ (∃ code, s.loadData f name bytes = s.raise code) ∨
    (validName name = true ∧ s.handles.find name = none ∧ (s.loadBank f).toNat < s.bankCount ∧
      s.fillOf (s.loadBank f).toNat + bytes.length ≤ bankSize ∧
      s.loadData f name bytes = s.placeData (s.loadBank f) name bytes) := by
  rcases loadData_cases s f name bytes with ⟨_, h⟩ | ⟨_, _, h⟩ | ⟨_, _, _, h⟩ | ⟨_, _, _, _, h⟩ | ⟨_, _, _, _, _, h⟩ |
    ⟨h1, h2, h3, h4, _, h⟩
  · exact .inr (.inl ⟨_, h⟩)
  · exact .inl ⟨_, h⟩
  · exact .inl ⟨_, h⟩
  · exact .inl ⟨_, h⟩
  · exact .inl ⟨_, h⟩
  · exact .inr (.inr ⟨h1, h2, h3, h4, h⟩)

/-- The effect of every instruction has one of the shapes. -/
theorem effect_shape (i : Instr) (s : State) : Shape s i (effect i s) := by
  cases i with
  | tick =>
    rcases tickTimer_cases s with ⟨_, _, _, h⟩ | ⟨_, _, _, h⟩ | ⟨_, h⟩ <;> simp only [effect, h]
    · exact .tick s.modulo (setBit s.IF s.cfg.kindTimer.val true)
    · exact .tick (s.counter + 1#8) s.IF
    · exact .tick s.counter s.IF
  | req k => simp only [effect, withKind]; split <;> [exact .raise _ _; exact .request k _]
  | cancel k => simp only [effect, withKind]; split <;> [exact .raise _ _; exact .withdraw k _]
  | setie k f => simp only [effect, withKind]; split <;> [exact .raise _ _; exact .setEnable k f _]
  | sethandler k p =>
    simp only [effect, withKind]; split <;> [exact .raise _ _; exact .register k p (by omega)]
  | service =>
    rcases service_cases s with ⟨_, h⟩ | ⟨_, _, h⟩ | ⟨k, h1, h2, h3, h⟩ <;> rw [h]
    · exact .raise _ _
    · exact .answer _ _
    · exact .acknowledge k h1 h2 h3
  | hret r => simp only [effect]; split <;> [exact .raise _ _; exact .endHandler r]
  | press g l =>
    rcases pressButton_cases s g l with ⟨_, h⟩ | ⟨_, _, h⟩ | ⟨_, _, h⟩ <;> simp only [effect, h]
    · exact .answer _ _
    · cases g
      · exact .press .buttons l (setBit s.buttons l.val false) (setBit s.IF s.cfg.kindJoypad.val true)
      · exact .press .dPad l (setBit s.dPad l.val false) (setBit s.IF s.cfg.kindJoypad.val true)
    · exact .press g l (setBit (s.groupField g) l.val false) s.IF
  | release g l => exact .release g l _
  | latch =>
    rcases latchRtc_cases s with ⟨_, h⟩ | ⟨_, h⟩ <;> simp only [effect, h]
    · exact .answer _ _
    · exact .latch _ (setBit s.IF s.cfg.kindRtc.val true)
  | wrRtcLatch v =>
    rcases latchRtc_cases s with ⟨_, h⟩ | ⟨_, h⟩ <;> simp only [effect, h]
    · exact .answer _ _
    · exact .latchWrite v _ (setBit s.IF s.cfg.kindRtc.val true)
  | setbankcount n =>
    simp only [effect]
    split
    · exact .raise _ _
    · rename_i h
      split
      · exact .answer _ _
      · exact .resizeBanks n (by omega) (by omega) (by simp_all)
  | load f name bytes =>
    rcases loadData_shape s f name bytes with ⟨r, h⟩ | ⟨c, h⟩ | ⟨h1, h2, h3, h4, h⟩ <;> simp only [effect, h]
    · exact .answer _ _
    · exact .raise _ _
    · exact .load f name bytes h1 h2 h3 h4
  | loadfile f name path =>
    cases hfile : s.answers.file with
    | none => simp only [effect, hfile]; exact .answer _ _
    | some bytes =>
      rcases loadData_shape s f name bytes with ⟨r, h⟩ | ⟨c, h⟩ | ⟨h1, h2, h3, h4, h⟩ <;> simp only [effect, hfile, h]
      · exact .answer _ _
      · exact .raise _ _
      · exact .loadfile f name path bytes h1 h2 h3 h4
  | gotoHandle h => simp only [effect]; split <;> [exact .answer _ _; exact .gotoBank h]
  | readbyte a =>
    simp only [effect]
    split
    · exact .raise _ _
    · rcases readWindow_cases s a with ⟨_, h⟩ | ⟨_, _, h⟩ | ⟨_, _, h⟩ <;> rw [h] <;> exact .answer _ _
  | lookup name => simp only [effect]; split <;> exact .answer _ _
  | rdRomx a => simp only [effect]; split <;> exact .answer _ _
  | setime f => exact .setMaster f
  | reti => exact .returns
  | setbank n => exact .selectBank n
  | wrIf v => exact .writeIf v
  | wrIe v => exact .writeIe v
  | wrDiv v => exact .clearDivider v
  | wrTima v => exact .writeTima v
  | wrTma v => exact .writeTma v
  | wrTac v => exact .writeTac v _ _
  | wrJoyp v => exact .writeJoyp v _ _
  | wrBankHi v => exact .bankHi v _
  | wrBankLo v => exact .bankLo v _
  | wrRom0 | wrRomx | wrRtcS | wrRtcM | wrRtcH | wrRtcDl | wrRtcDh | rdUnmapped | wrUnmapped => exact .raise _ _
  | rdRom0 | rdIf | rdIe | rdDiv | rdTima | rdTma | rdTac | rdJoyp | rdRtcS | rdRtcM | rdRtcH | rdRtcDl | rdRtcDh |
    rdRtcLatch | rdBankHi | rdBankLo => exact .answer _ _

/-- The inversion of `exec` by shapes: a next state is the answer of a faulted state, or has a shape of its instruction. -/
theorem exec_shape {i : Instr} {s t : State} (h : exec i s = .next t) :
    (∃ code, s.fault = some code ∧ t = s.respond (.faulted code)) ∨ (s.fault = none ∧ Shape s i t) := by
  rcases (exec_eq_next_iff i s t).1 h with h | ⟨h1, rfl⟩
  · exact .inl h
  · exact .inr ⟨h1, effect_shape i s⟩

end Sys2Proof.Machine
end

