-- ==== Sys2Proof/Laws/Step.lean ====
section
/-! SUPPORT. What one transaction can do, read from the meanings once: the three outcomes of `perform`, the only way a
fault is set (60_exceptions.md R331), every way IF changes (R334, R335), the acknowledge step and a TICK word. -/

namespace Sys2Proof.Machine

/-- `perform`, from its next state: the faulted prelude, a decoded transaction, or a rejected word. -/
theorem perform_next {tx s t} (h : perform tx s = .next t) : (∃ code, s.fault = some code ∧
    t = (s.accept tx).respond (.faulted code)) ∨
   (s.fault = none ∧ ∃ i, decode s.cfg tx.word tx.payload = .ok i ∧ exec i (s.accept tx) = .next t) ∨
       (s.fault = none ∧ (∃ e, decode s.cfg tx.word tx.payload = .error e) ∧
       t = (s.accept tx).raise .illegalOperation) := by
  rcases perform_cases tx s with ⟨i, hd, he⟩ | ⟨e, hd, he⟩ <;> rw [he] at h
  · cases hs : s.fault with
    | none => exact .inr (.inl ⟨rfl, i, hd, h⟩)
    | some c => left; rw [exec_eq_transact, transact_of_fault (s := s.accept tx) hs] at h; cases h; exact ⟨c, rfl, rfl⟩
  · rcases (transact_eq_next_iff _ _ _).1 h with ⟨c, hc, rfl⟩ | ⟨hc, rfl⟩
    · exact .inl ⟨c, hc, rfl⟩
    · exact .inr (.inr ⟨hc, ⟨e, hd⟩, rfl⟩)

theorem perform_faulted {s : State} {code} (h : s.fault = some code) (tx) :
    perform tx s = .next ((s.accept tx).respond (.faulted code)) := by
  have h' : (s.accept tx).fault = some code := h
  rcases perform_cases tx s with ⟨i, hd, hp⟩ | ⟨e, hd, hp⟩
  · rw [hp, exec_eq_transact, transact_of_fault h']
  · rw [hp, transact_of_fault h']

/-- Only `raise` sets a fault. -/
theorem effect_fault (i : Instr) (s : State) (hs : s.fault = none) (code) (hf : (effect i s).fault = some code) :
    effect i s = s.raise code := by
  have key : ∀ f n b, (s.loadData f n b).fault = some code → s.loadData f n b = s.raise code := by
    intro f n b hf
    rcases loadData_cases s f n b with ⟨_, h⟩ | ⟨_, _, h⟩ | ⟨_, _, _, h⟩ | ⟨_, _, _, _, h⟩ | ⟨_, _, _, _, _, h⟩ | ⟨_, _, _, _, _, h⟩ <;> rw [h] at hf ⊢ <;> simp [State.placeData, hs] at hf ⊢
    rw [hf]
  cases i
  case load f n b => exact key _ _ _ hf
  case loadfile f n b =>
    revert hf
    simp only [effect]; split
    · simp [State.fail, hs]
    · exact key _ _ _
  case tick => rcases tickTimer_cases s with ⟨_, _, _, h⟩ | ⟨_, _, _, h⟩ | ⟨_, h⟩ <;> simp [effect, h, hs] at hf
  case service =>
    rcases service_cases s with ⟨_, h⟩ | ⟨_, _, h⟩ | ⟨k, _, _, _, h⟩ <;> rw [h] at hf ⊢ <;> simp [State.acknowledge, hs] at hf ⊢
    · rw [hf]
    · split at hf <;> simp_all
  case press g l => rcases pressButton_cases s g l with ⟨_, h⟩ | ⟨_, _, h⟩ | ⟨_, _, h⟩ <;> cases g <;> simp [effect, h, hs, State.setGroupField] at hf
  case release g l => cases g <;> simp [effect, hs, State.setGroupField] at hf
  case latch => rcases latchRtc_cases s with ⟨_, h⟩ | ⟨_, h⟩  <;> simp [effect, h, hs] at hf
  case wrRtcLatch => rcases latchRtc_cases s with ⟨_, h⟩ | ⟨_, h⟩  <;> simp [effect, h, hs] at hf
  case readbyte a =>
    revert hf
    simp only [effect]; split
    · simp; rintro rfl; rfl
    · rcases readWindow_cases s a with ⟨_, h⟩ | ⟨_, _, h⟩ | ⟨_, _, h⟩ <;> simp [h, hs]
  all_goals
    revert hf
    simp only [effect, withKind]
    (repeat' split) <;> simp [hs, State.fail, State.resizeBanks] <;> (rintro rfl; rfl)

theorem loadData_IF (s : State) (f n b) : (s.loadData f n b).IF = s.IF := by
  rcases loadData_cases s f n b with ⟨h1, h⟩ | ⟨h1, h2, h⟩ | ⟨h1, _, h4, h⟩ | ⟨h1, _, _, _, h⟩ | ⟨h1, _, _, _, ha, h⟩ | ⟨h1, _, _, _, _, h⟩ <;> rw [h] <;> rfl

/-- Every way a transaction changes IF. -/
theorem effect_IF (i s) : (effect i s).IF = s.IF ∨ (i = .tick ∧ s.enabled = true ∧ s.counter = 0xFF#8 ∧
    fallingEdge s.divider (s.divider + 1#16) (timerBit s.clockSpeed) = true ∧
    (effect i s).IF = setBit s.IF s.cfg.kindTimer.val true) ∨
   (∃ k : Kind, i = .req k ∧ k.val < s.cfg.intKindCount ∧ (effect i s).IF = setBit s.IF k.val true) ∨
   (∃ k, i = .cancel k ∧ (effect i s).IF = setBit s.IF k.val false) ∨
   (∃ k, i = .service ∧ s.IME = true ∧ s.lowestRequesting = some k ∧ (effect i s).IF = setBit s.IF k.val false) ∨
   (∃ g l, i = .press g l ∧ s.selected g = true ∧ (s.groupField g).getLsbD l.val = true ∧
       (effect i s).IF = setBit s.IF s.cfg.kindJoypad.val true) ∨
   ((i = .latch ∨ ∃ v, i = .wrRtcLatch v) ∧ s.cfg.rtcDerive.derive s.answers.wall ≠ s.rtcFields ∧
       (effect i s).IF = setBit s.IF s.cfg.kindRtc.val true) ∨
   (∃ v, i = .wrIf v ∧ (effect i s).IF = v) := by
  cases i
  case tick => rcases tickTimer_cases s with ⟨h1, h3, h2, h⟩ | ⟨_, _, _, h⟩ | ⟨_, h⟩ <;> simp only [effect, h] <;> simp [*]
  case req k => rcases withKind_cases k s (fun s => (s.requestInterrupt k).respond .ok) with ⟨h1, h⟩ | ⟨h1, h⟩ <;> simp only [effect, h] <;> simp [h1]
  case cancel k => rcases withKind_cases k s (fun s => (s.cancelInterrupt k).respond .ok) with ⟨h1, h⟩ | ⟨h1, h⟩ <;> simp only [effect, h] <;> simp
  case service =>
    rcases service_cases s with ⟨_, h⟩ | ⟨_, _, h⟩ | ⟨k, h1, h2, h3, h⟩ <;> rw [h]
    · simp
    · simp
    · refine .inr (.inr (.inr (.inr (.inl ⟨k, rfl, h2, h3, ?_⟩)))); simp [State.acknowledge]; split <;> rfl
  case press g l =>
    rcases pressButton_cases s g l with ⟨_, h⟩ | ⟨h1, h2, h⟩ | ⟨_, _, h⟩ <;> simp only [effect, h]
    · simp
    · refine .inr (.inr (.inr (.inr (.inr (.inl ⟨g, l, rfl, h2, h1, ?_⟩))))); simp
    · simp
  case release g l => left; simp [effect]
  case latch => rcases latchRtc_cases s with ⟨_, h⟩ | ⟨h1, h⟩ <;> simp only [effect, h] <;> simp [*]
  case wrRtcLatch => rcases latchRtc_cases s with ⟨_, h⟩ | ⟨h1, h⟩ <;> simp only [effect, h] <;> simp [*]
  case load f n b => left; exact loadData_IF _ _ _ _
  case loadfile f n p => left; simp only [effect]; split; rfl; exact loadData_IF _ _ _ _
  case readbyte a =>
    left; simp only [effect]; split
    · rfl
    · rcases readWindow_cases s a with ⟨_, h⟩ | ⟨_, _, h⟩ | ⟨h1, h2, h⟩ <;> rw [h] <;> rfl
  case wrIf v => simp [effect]
  all_goals
    left
    first | rfl | (simp only [effect, withKind]; (repeat' split) <;> rfl)

theorem lowestRequesting_of {s : State} {k : Kind} (h1 : s.requesting k = true) (h2 : ∀ j : Kind, j.val < k.val →
    s.requesting j = false) : s.lowestRequesting = some k :=
  (lowestRequesting_eq_some_iff s k).2 ⟨h1, h2⟩

theorem exec_service_acknowledge {s : State} {k : Kind} (hs : s.fault = none) (h1 : s.svc = .idle) (h2 :
    s.IME = true) (h3 : s.lowestRequesting = some k) : exec .service s = .next (s.acknowledge k) := by
  rw [exec_of_running hs]; simp [effect, h1, h2, h3]

theorem acknowledge_IF (s : State) (k : Kind) (j : Nat) :
    (s.acknowledge k).IF.getLsbD j = (decide (j ≠ k.val) && s.IF.getLsbD j) := by
  have : (s.acknowledge k).IF = setBit s.IF k.val false := by unfold State.acknowledge; split <;> rfl
  rw [this, getLsbD_setBit _ _ _ _ k.isLt]; by_cases h : j = k.val <;> simp [h]

theorem timerBit_of_speedSelects {x b} (h : SpeedSelects x b) : timerBit x = b := by
  rcases h with ⟨h, rfl⟩ | ⟨h, rfl⟩ | ⟨h, rfl⟩ | ⟨h, rfl⟩ <;> subst h <;> rfl

theorem speedSelects_timerBit : ∀ x : BitVec 2, SpeedSelects x (timerBit x) := by
  unfold SpeedSelects
  decide

theorem bit_le_of_speedSelects {x b} (h : SpeedSelects x b) : b ≤ 9 := by
    rw [← timerBit_of_speedSelects h]; exact timerBit_le x

theorem decode_tick (c p) : decode c 0x03000000#32 p = .ok .tick := by
  simp [decode, show fieldOp 0x03000000#32 = 0x03#8 by decide, show fieldA 0x03000000#32 = 0#16 by decide,
      show fieldD 0x03000000#32 = 0#8 by decide, checked]

theorem perform_tick {s : State} {tx} (h : tx.word = 0x03000000#32) : perform tx s = exec .tick (s.accept tx) := by
  unfold perform; rw [h, decode_tick]

/-- An entry of the handle table outlives every transaction. -/
theorem exec_handles {i s t} (h : exec i s = .next t) (name hd) (hf : s.handles.find name = some hd) :
    t.handles.find name = some hd := by
  rcases exec_shape h with ⟨c, _, rfl⟩ | ⟨_, h⟩
  · exact hf
  · cases h <;> try exact hf
    case acknowledge => rw [State.acknowledge_handles]; exact hf
    case press g _ _ _ => cases g <;> exact hf
    case release g _ _ => cases g <;> exact hf
    case load f n b hn hh _ _ => rw [State.placeData_handles, find_insert_ne, hf]; rintro rfl; rw [hf] at hh; cases hh
    case loadfile f n p b hn hh _ _ => rw [State.placeData_handles, find_insert_ne, hf]; rintro rfl; rw [hf] at hh; cases hh

end Sys2Proof.Machine
end

