-- ==== Sys2Proof/Laws/Store.lean ====
section
/-! SUPPORT. The two operations that write the bank array, `resizeBanks` (44_data_store.md R260) and `placeData` (R265):
what each does to every byte and fill position, and that each keeps the invariant. -/

namespace Sys2Proof.Machine

theorem fillOf_resizeBanks {s : State} (hl : s.fill.length = s.bankCount) (n b : Nat) (hb : b < n) :
    (s.resizeBanks n).fillOf b = if b < s.bankCount then s.fillOf b else 0 := by
  unfold State.fillOf; simp only [State.resizeBanks_fill, List.getD]
  split
  · rw [getElem?_resize_of_lt _ _ _ _ (by omega) hb]
  · rw [getElem?_resize_of_ge _ _ _ _ (by omega) hb]; rfl

theorem read_none_of_ge {s : State} (h : s.Inv) {b o : Nat} (hb : s.bankCount ≤ b) (ho : o < bankSize) :
    s.banks.read (bankKey b o) = none := by
  cases hr : s.banks.read (bankKey b o) with
  | none => rfl
  | some v => have := (h.loadedBelowFill _ (mem_of_read hr)).1; rw [bankKey_div ho] at this; omega

theorem bankKey_lt {b o n} (ho : o < bankSize) : bankKey b o < n * bankSize ↔ b < n := by
  unfold bankKey bankSize at *; omega

theorem below_of_inv {s : State} (h : s.Inv) : s.banks.below (s.bankCount * bankSize) = s.banks := by
  unfold Memory.below
  rw [List.filter_eq_self]
  intro c hc
  have := (h.loadedBelowFill c hc).1
  rw [decide_eq_true_eq]
  exact Nat.lt_of_div_lt_div (by rw [Nat.mul_div_cancel _ (by decide : 0 < bankSize)]; exact this)

theorem bytes_append : ∀ (c : BitVec 16), (c.extractLsb' 8 8 ++ c.extractLsb' 0 8 : BitVec 16) = c := by
  intro c
  apply BitVec.eq_of_toNat_eq
  have h : (c.extractLsb' 8 8 ++ c.extractLsb' 0 8 : BitVec 16).toNat = (c.extractLsb' 8 8 ++ c.extractLsb' 0 8 : BitVec (8+8)).toNat := rfl
  rw [h, BitVec.toNat_append, ← Nat.shiftLeft_add_eq_or_of_lt (BitVec.isLt _)]
  have := c.isLt
  simp [BitVec.extractLsb'_toNat, Nat.shiftRight_eq_div_pow, Nat.shiftLeft_eq]; omega

theorem append_toNat (a b : Byte) : (a ++ b : BitVec 16).toNat = a.toNat * 256 + b.toNat := by
  have h : (a ++ b : BitVec 16).toNat = (a ++ b : BitVec (8+8)).toNat := rfl
  rw [h, BitVec.toNat_append, ← Nat.shiftLeft_add_eq_or_of_lt b.isLt, Nat.shiftLeft_eq]

theorem validName_of_length {name : Name} (h1 : 1 ≤ name.length) (h2 : name.length ≤ 32) :
    validName name = true := by simp only [validName, h1, h2]; rfl

theorem bankByte_placeData {s : State} (tb : BitVec 16) (name bytes) (b o : Nat) (ho : o < bankSize) (hf :
    s.fillOf tb.toNat + bytes.length ≤ bankSize) :
   (s.placeData tb name bytes).bankByte b o = if b = tb.toNat ∧ s.fillOf tb.toNat ≤ o ∧
       o < s.fillOf tb.toNat + bytes.length then bytes.getD (o - s.fillOf tb.toNat) 0 else s.bankByte b o := by
  unfold State.bankByte
  simp only [State.placeData_banks, read_write]
  have hk : (bankKey tb.toNat (s.fillOf tb.toNat) ≤ bankKey b o ∧
      bankKey b o < bankKey tb.toNat (s.fillOf tb.toNat) + bytes.length) ↔ (b = tb.toNat ∧ s.fillOf tb.toNat ≤ o ∧
      o < s.fillOf tb.toNat + bytes.length) := by
    unfold bankKey bankSize at *
    constructor
    · rintro ⟨h1, h2⟩; have : b = tb.toNat := by omega
      subst this; omega
    · rintro ⟨rfl, h1, h2⟩; omega
  by_cases h : b = tb.toNat ∧ s.fillOf tb.toNat ≤ o ∧ o < s.fillOf tb.toNat + bytes.length
  · rw [if_pos (hk.2 h), if_pos h]
    obtain ⟨rfl, h1, h2⟩ := h
    have : bankKey tb.toNat o - bankKey tb.toNat (s.fillOf tb.toNat) = o - s.fillOf tb.toNat := by
        unfold bankKey; omega
    rw [this, List.getElem?_eq_getElem (by omega)]
    simp [List.getD, List.getElem?_eq_getElem (show o - s.fillOf tb.toNat < bytes.length by omega)]
  · rw [if_neg (fun x => h (hk.1 x)), if_neg h]; rfl

theorem fillOf_placeData {s : State} (tb : BitVec 16) (name bytes) (b : Nat) (hl : tb.toNat < s.fill.length) :
   (s.placeData tb name bytes).fillOf b = if b = tb.toNat then s.fillOf tb.toNat + bytes.length else s.fillOf b := by
  unfold State.fillOf; simp only [State.placeData_fill, List.getD, List.getElem?_set, State.fillOf]
  by_cases h : b = tb.toNat
  · subst h; simp [hl]
  · simp [h, Ne.symm h]

theorem respond_inv {s : State} (h : s.Inv) (r) : (s.respond r).Inv := ⟨h.1, h.2, h.3, h.4, h.5, h.6, h.7, h.8,
    h.9, h.10, h.11, h.12⟩

theorem loadBank_fill {s : State} (h : s.Inv) (f) (hb : (s.loadBank f).toNat < s.bankCount) :
    (s.loadBank f).toNat < s.fill.length := by rw [h.fillTable]; exact hb

theorem placeData_inv {s : State} (h : s.Inv) (tb : BitVec 16) (name : Name) (bytes : List Byte) (hn :
    validName name = true) (hb : tb.toNat < s.bankCount) (hf : s.fillOf tb.toNat + bytes.length ≤ bankSize) :
    (s.placeData tb name bytes).Inv where
  config := h.config
  handlerTable := h.handlerTable
  phase := h.phase
  bankRange := h.bankRange
  fillTable := by simp [h.fillTable]
  originTable := h.originTable
  fillRange := by
    intro x hx; simp at hx
    rcases List.mem_or_eq_of_mem_set hx with hx | rfl
    · exact h.fillRange x hx
    · exact hf
  banksCanonical := by rw [State.placeData_banks]; exact write_wf h.banksCanonical _ _
  loadedBelowFill := by
    intro c hc
    rw [State.placeData_banks] at hc
    have hl : tb.toNat < s.fill.length := by rw [h.fillTable]; exact hb
    rw [fillOf_placeData _ _ _ _ hl, State.placeData_bankCount]
    rcases mem_write hc with hc | ⟨h1, h2⟩
    · obtain ⟨h1, h2⟩ := h.loadedBelowFill c hc
      refine ⟨h1, ?_⟩
      split
      · rename_i e; rw [e] at h2; omega
      · exact h2
    · have hk : c.1 = bankKey tb.toNat (c.1 - bankKey tb.toNat 0) := by unfold bankKey at *; omega
      have ho : c.1 - bankKey tb.toNat 0 < bankSize := by unfold bankKey at *; omega
      rw [hk, bankKey_div ho, bankKey_mod ho, if_pos rfl]
      unfold bankKey at *
      exact ⟨hb, by omega⟩
  fillLoaded := by
    intro b o hb' ho
    have hl : tb.toNat < s.fill.length := by rw [h.fillTable]; exact hb
    rw [fillOf_placeData _ _ _ _ hl] at ho
    rw [State.placeData_banks, read_write]
    split
    · rename_i hx
      rw [List.getElem?_eq_getElem (by omega)]; rfl
    · rename_i hx
      split at ho
      · rename_i e; subst e
        refine h.fillLoaded _ o hb' ?_
        unfold bankKey at hx; omega
      · exact h.fillLoaded _ o hb' ho
  handlesCanonical := by rw [State.placeData_handles]; exact insert_wf h.handlesCanonical _ _
  handleWidths := by
    intro e he
    rw [State.placeData_handles] at he
    rcases mem_insert he with rfl | he
    · refine ⟨hn, ?_⟩; dsimp only; omega
    · exact h.handleWidths e he

theorem resizeBanks_inv {s : State} (h : s.Inv) (n : Nat) (h1 : 1 ≤ n) (h2 : n ≤ 65536) : (s.resizeBanks n).Inv where
  config := h.config
  handlerTable := h.handlerTable
  phase := h.phase
  bankRange := ⟨h1, h2⟩
  fillTable := length_resize _ _ _
  originTable := length_resize _ _ _
  fillRange := by
    intro x hx
    rcases mem_resize hx with hx | rfl
    · exact h.fillRange x hx
    · decide
  banksCanonical := below_wf h.banksCanonical _
  loadedBelowFill := by
    intro c hc
    simp only [State.resizeBanks_banks, Memory.below, List.mem_filter, decide_eq_true_eq] at hc
    obtain ⟨h3, h4⟩ := h.loadedBelowFill c hc.1
    have : c.1 / bankSize < n := Nat.div_lt_of_lt_mul (by rw [Nat.mul_comm]; exact hc.2)
    refine ⟨this, ?_⟩
    rw [fillOf_resizeBanks h.fillTable _ _ this, if_pos h3]; exact h4
  fillLoaded := by
    intro b o hb ho
    have hb : b < n := hb
    rw [fillOf_resizeBanks h.fillTable _ _ hb] at ho
    split at ho
    · rename_i hb'
      have hfo : s.fillOf b ≤ bankSize := by
        unfold State.fillOf; rw [List.getD, List.getElem?_eq_getElem (by rw [h.fillTable]; exact hb')]
        exact h.fillRange _ (List.getElem_mem _)
      rw [State.resizeBanks_banks, read_below, if_pos ((bankKey_lt (by omega)).2 hb)]
      exact h.fillLoaded b o hb' ho
    · omega
  handlesCanonical := h.handlesCanonical
  handleWidths := h.handleWidths

end Sys2Proof.Machine
end

