-- ==== Sys2Proof/Machine/Assembly.lean ====
section
/-! DEFINITION. The assembler syntax of 30_encoding.md R101: the line that stands for a transaction. It is a notation and
no part of the machine's behaviour; kinds are written as numbers, targets by name, addresses and bytes in hex (log 18). -/

namespace Sys2Proof.Machine

/-- A hexadecimal digit. -/
def hexDigit (n : Nat) : Char := Char.ofNat (if n < 10 then 48 + n else 55 + n)

/-- A byte, `0x` and two digits. -/
def asmByte (v : Byte) : String := ("0x".push (hexDigit (v.toNat / 16))).push (hexDigit (v.toNat % 16))

/-- An address, `0x` and four digits. -/
def asmAddr (a : Addr) : String :=
  (((("0x".push (hexDigit (a.toNat / 4096))).push (hexDigit (a.toNat / 256 % 16))).push
    (hexDigit (a.toNat / 16 % 16))).push (hexDigit (a.toNat % 16)))

/-- A flag, `0` or `1`. -/
def asmFlag (f : Bool) : String := if f then "1" else "0"

/-- A button, `BTN.<l>` or `DPAD.<l>`. -/
def asmButton (g : Group) (l : Line) : String :=
  (match g with | .buttons => "BTN." | .dPad => "DPAD.") ++ toString l.val

/-- A quoted name. -/
def asmName (n : Name) : String := "\"" ++ String.ofList n ++ "\""

/-- The target of a load, `BANK0` for f = 1 and `CUR` for f = 0 (R101). -/
def asmBank (f : Bool) : String := if f then "BANK0" else "CUR"

/-- `RD <target>`. -/
def asmRd (target : String) : String := "RD " ++ target

/-- `WR <target>, <byte>`. -/
def asmWr (target : String) (v : Byte) : String := "WR " ++ target ++ ", " ++ asmByte v

/-- The line of a transaction (R101). -/
def asmLine : Instr → String
  | .tick => "TICK"
  | .req k => "REQ " ++ toString k.val
  | .cancel k => "CANCEL " ++ toString k.val
  | .setie k f => "SETIE " ++ toString k.val ++ ", " ++ asmFlag f
  | .setime f => "SETIME " ++ asmFlag f
  | .service => "SERVICE"
  | .reti => "RETI"
  | .sethandler k p => "SETHANDLER " ++ toString k.val ++ ", " ++ asmFlag p
  | .hret r => "HRET " ++ asmFlag r
  | .press g l => "PRESS " ++ asmButton g l
  | .release g l => "RELEASE " ++ asmButton g l
  | .latch => "LATCH"
  | .setbankcount n => "SETBANKCOUNT " ++ toString n
  | .setbank n => "SETBANK " ++ toString n.toNat
  | .load f name bytes =>
    "LOAD " ++ asmBank f ++ ", " ++ asmName name ++ ", [" ++ ", ".intercalate (bytes.map asmByte) ++ "]"
  | .loadfile f name path => "LOADFILE " ++ asmBank f ++ ", " ++ asmName name ++ ", " ++ asmName path
  | .gotoHandle h =>
    (("GOTO ".push (Char.ofNat 123)) ++ toString h.length ++ ", " ++ toString h.address ++ ", " ++
      toString h.bank.toNat).push (Char.ofNat 125)
  | .readbyte a => "READBYTE " ++ asmAddr a
  | .lookup name => "LOOKUP " ++ asmName name
  | .rdRom0 a => asmRd (asmAddr (0b00#2 ++ a))
  | .wrRom0 a v => asmWr (asmAddr (0b00#2 ++ a)) v
  | .rdRomx a => asmRd (asmAddr (0b01#2 ++ a))
  | .wrRomx a v => asmWr (asmAddr (0b01#2 ++ a)) v
  | .rdIf => asmRd "IF"
  | .wrIf v => asmWr "IF" v
  | .rdIe => asmRd "IE"
  | .wrIe v => asmWr "IE" v
  | .rdDiv => asmRd "DIV"
  | .wrDiv v => asmWr "DIV" v
  | .rdTima => asmRd "TIMA"
  | .wrTima v => asmWr "TIMA" v
  | .rdTma => asmRd "TMA"
  | .wrTma v => asmWr "TMA" v
  | .rdTac => asmRd "TAC"
  | .wrTac v => asmWr "TAC" v
  | .rdJoyp => asmRd "JOYP"
  | .wrJoyp v => asmWr "JOYP" v
  | .rdRtcS => asmRd "RTC_S"
  | .wrRtcS v => asmWr "RTC_S" v
  | .rdRtcM => asmRd "RTC_M"
  | .wrRtcM v => asmWr "RTC_M" v
  | .rdRtcH => asmRd "RTC_H"
  | .wrRtcH v => asmWr "RTC_H" v
  | .rdRtcDl => asmRd "RTC_DL"
  | .wrRtcDl v => asmWr "RTC_DL" v
  | .rdRtcDh => asmRd "RTC_DH"
  | .wrRtcDh v => asmWr "RTC_DH" v
  | .rdRtcLatch => asmRd "RTC_LATCH"
  | .wrRtcLatch v => asmWr "RTC_LATCH" v
  | .rdBankHi => asmRd "BANK_HI"
  | .wrBankHi v => asmWr "BANK_HI" v
  | .rdBankLo => asmRd "BANK_LO"
  | .wrBankLo v => asmWr "BANK_LO" v
  | .rdUnmapped a => asmRd (asmAddr a)
  | .wrUnmapped a v => asmWr (asmAddr a) v

end Sys2Proof.Machine
end

