-- ==== Sys2Proof/Tests/Slice0.lean ====
section
/-! SUPPORT. The model's own tests: ill-formed terms, words written out from 30_encoding.md, single transactions from
95_test_vectors.md, and a witness of the hypotheses of each statement of Certificates/Slice0/Obligations.lean. -/

namespace Sys2Proof.Tests

open Sys2Proof.Machine

/-! ### Ill-formed terms that WellFormed refuses, each beside its well-formed neighbour -/

theorem test_refuses_bank_count : Instr.wellFormed .instT (.setbankcount 0) = false ∧
    Instr.wellFormed .instT (.setbankcount 65537) = false ∧ Instr.wellFormed .instT (.setbankcount 1) = true ∧
    Instr.wellFormed .instT (.setbankcount 65536) = true := by
  decide

theorem test_refuses_handle : Instr.wellFormed .instT (.gotoHandle ⟨16385, 0, 0#16⟩) = false ∧
    Instr.wellFormed .instT (.gotoHandle ⟨0, 16385, 0#16⟩) = false ∧
    Instr.wellFormed .instT (.gotoHandle ⟨16384, 16384, 0xFFFF#16⟩) = true ∧
    Payload.wellFormed { handle := ⟨16385, 0, 0#16⟩ } = false := by
  decide

theorem test_refuses_mapped_address : Instr.wellFormed .instT (.rdUnmapped 0x7FFF#16) = false ∧
    Instr.wellFormed .instT (.rdUnmapped 0xFF04#16) = false ∧ Instr.wellFormed .instT (.wrUnmapped 0x0000#16 0#8) = false ∧
    Instr.wellFormed .instT (.wrUnmapped 0xFF67#16 0#8) = false ∧ Instr.wellFormed .instT (.rdUnmapped 0x8000#16) = true ∧
    Instr.wellFormed .instT (.wrUnmapped 0xFF68#16 0#8) = true := by
  decide

/-- R102: the pseudo-instructions with operands. -/
theorem test_pseudo : Pseudo.expand (.ticks 2) = [.tick, .tick] ∧
    Pseudo.expand (.setbank16 0x0105#16) = [.wrBankHi 0x01#8, .wrBankLo 0x05#8] := by
  decide

/-- R101, on lines of 95_test_vectors.md program 1 and 2. -/
theorem test_asm : asmLine (.wrTac 0x05#8) = "WR TAC, 0x05" ∧ asmLine (.sethandler 2 true) = "SETHANDLER 2, 1" ∧
    asmLine (.press .dPad 3) = "PRESS DPAD.3" ∧ asmLine (.rdRomx 0#14) = "RD 0x4000" := by
  decide

/-! ### Words written out bit by bit: OP, A, D (30_encoding.md R90) -/

/-- Format N, K, KF and F (R91) of the Interrupt Controller's OP values (R94). -/
theorem test_words_interrupt :
    decodeTableWord 32 0b00010000000000000000000000000010 = some (.req 2) ∧
    decodeTableWord 32 0b00010001000000000000000000000100 = some (.cancel 4) ∧
    decodeTableWord 32 0b00010010000000000000000010000100 = some (.setie 4 true) ∧
    decodeTableWord 32 0b00010010000000000000000000000101 = some (.setie 5 false) ∧
    decodeTableWord 32 0b00010011000000000000000000000001 = some (.setime true) ∧
    decodeTableWord 32 0b00010100000000000000000000000000 = some .service ∧
    decodeTableWord 32 0b00010101000000000000000000000000 = some .reti ∧
    decodeTableWord 32 0b00010110000000000000000010000010 = some (.sethandler 2 true) ∧
    decodeTableWord 32 0b00010111000000000000000000000001 = some (.hret true) ∧
    decodeTableWord 32 0b00010111000000000000000000000000 = some (.hret false) := by
  decide

/-- TICK, PRESS, RELEASE and LATCH: format N and format J, D[2] = 0 for the buttons (R91, R93, R94). -/
theorem test_words_timer_joypad_rtc :
    decodeTableWord 32 0b00000011000000000000000000000000 = some .tick ∧
    decodeTableWord 32 0b00100000000000000000000000000010 = some (.press .buttons 2) ∧
    decodeTableWord 32 0b00100000000000000000000000000111 = some (.press .dPad 3) ∧
    decodeTableWord 32 0b00100001000000000000000000000110 = some (.release .dPad 2) ∧
    decodeTableWord 32 0b00100001000000000000000000000000 = some (.release .buttons 0) ∧
    decodeTableWord 32 0b00110000000000000000000000000000 = some .latch := by
  decide

/-- The store's OP values; the payload is the sample payload (R92, R94). SETBANKCOUNT encodes n - 1 (R93). -/
theorem test_words_store :
    decodeTableWord 32 0b01000000000000000000000000000000 = some (.setbankcount 1) ∧
    decodeTableWord 32 0b01000000111111111111111100000000 = some (.setbankcount 65536) ∧
    decodeTableWord 32 0b01000001000000010000001000000000 = some (.setbank 0x0102#16) ∧
    decodeTableWord 32 0b01000010000000000000000000000001 = some (.load true ['a'] [0x00#8]) ∧
    decodeTableWord 32 0b01000010000000000000000000000000 = some (.load false ['a'] [0x00#8]) ∧
    decodeTableWord 32 0b01000011000000000000000000000001 = some (.loadfile true ['a'] ['f']) ∧
    decodeTableWord 32 0b01000100000000000000000000000000 = some (.gotoHandle ⟨1, 0, 0#16⟩) ∧
    decodeTableWord 32 0b01000101010000000000000100000000 = some (.readbyte 0x4001#16) ∧
    decodeTableWord 32 0b01000110000000000000000000000000 = some (.lookup ['a']) := by
  decide

/-- RD of each target under instantiation T (R8, R95): OP 0x01, the address in A. -/
theorem test_words_bus_reads :
    decodeTableWord 32 0b00000001001111111111111100000000 = some (.rdRom0 0x3FFF#14) ∧
    decodeTableWord 32 0b00000001010000000000010100000000 = some (.rdRomx 0x0005#14) ∧
    decodeTableWord 32 0b00000001011111111111111100000000 = some (.rdRomx 0x3FFF#14) ∧
    decodeTableWord 32 0b00000001111111110000111100000000 = some .rdIf ∧
    decodeTableWord 32 0b00000001111111111111111100000000 = some .rdIe ∧
    decodeTableWord 32 0b00000001111111110000010000000000 = some .rdDiv ∧
    decodeTableWord 32 0b00000001111111110000010100000000 = some .rdTima ∧
    decodeTableWord 32 0b00000001111111110000011000000000 = some .rdTma ∧
    decodeTableWord 32 0b00000001111111110000011100000000 = some .rdTac ∧
    decodeTableWord 32 0b00000001111111110000000000000000 = some .rdJoyp ∧
    decodeTableWord 32 0b00000001111111110110000000000000 = some .rdRtcS ∧
    decodeTableWord 32 0b00000001111111110110000100000000 = some .rdRtcM ∧
    decodeTableWord 32 0b00000001111111110110001000000000 = some .rdRtcH ∧
    decodeTableWord 32 0b00000001111111110110001100000000 = some .rdRtcDl ∧
    decodeTableWord 32 0b00000001111111110110010000000000 = some .rdRtcDh ∧
    decodeTableWord 32 0b00000001111111110110010100000000 = some .rdRtcLatch ∧
    decodeTableWord 32 0b00000001111111110110011000000000 = some .rdBankHi ∧
    decodeTableWord 32 0b00000001111111110110011100000000 = some .rdBankLo ∧
    decodeTableWord 32 0b00000001100000000000000000000000 = some (.rdUnmapped 0x8000#16) ∧
    decodeTableWord 32 0b00000001111111110110100000000000 = some (.rdUnmapped 0xFF68#16) := by
  decide

/-- WR of each target under instantiation T (R8, R95): OP 0x02, the address in A, the byte in D. -/
theorem test_words_bus_writes :
    decodeTableWord 32 0b00000010001000000000000000000001 = some (.wrRom0 0x2000#14 0x01#8) ∧
    decodeTableWord 32 0b00000010010000000000000010100101 = some (.wrRomx 0x0000#14 0xA5#8) ∧
    decodeTableWord 32 0b00000010111111110000111110100101 = some (.wrIf 0xA5#8) ∧
    decodeTableWord 32 0b00000010111111111111111110100101 = some (.wrIe 0xA5#8) ∧
    decodeTableWord 32 0b00000010111111110000010010100101 = some (.wrDiv 0xA5#8) ∧
    decodeTableWord 32 0b00000010111111110000010110100101 = some (.wrTima 0xA5#8) ∧
    decodeTableWord 32 0b00000010111111110000011010100101 = some (.wrTma 0xA5#8) ∧
    decodeTableWord 32 0b00000010111111110000011110100101 = some (.wrTac 0xA5#8) ∧
    decodeTableWord 32 0b00000010111111110000000010100101 = some (.wrJoyp 0xA5#8) ∧
    decodeTableWord 32 0b00000010111111110110000010100101 = some (.wrRtcS 0xA5#8) ∧
    decodeTableWord 32 0b00000010111111110110000110100101 = some (.wrRtcM 0xA5#8) ∧
    decodeTableWord 32 0b00000010111111110110001010100101 = some (.wrRtcH 0xA5#8) ∧
    decodeTableWord 32 0b00000010111111110110001110100101 = some (.wrRtcDl 0xA5#8) ∧
    decodeTableWord 32 0b00000010111111110110010010100101 = some (.wrRtcDh 0xA5#8) ∧
    decodeTableWord 32 0b00000010111111110110010110100101 = some (.wrRtcLatch 0xA5#8) ∧
    decodeTableWord 32 0b00000010111111110110011010100101 = some (.wrBankHi 0xA5#8) ∧
    decodeTableWord 32 0b00000010111111110110011110100101 = some (.wrBankLo 0xA5#8) ∧
    decodeTableWord 32 0b00000010100000000000000010100101 = some (.wrUnmapped 0x8000#16 0xA5#8) := by
  decide

/-- Vectors E1-E6, E9, E10 of 95_test_vectors.md, a non-zero A under format N and the OP value after LOOKUP's: all rejected (R96, R97). -/
theorem test_words_reserved :
    decodeTableWord 32 0b00000000000000000000000000000000 = none ∧
    decodeTableWord 32 0b11111111000000000000000000000000 = none ∧
    decodeTableWord 32 0b00000001111111110000010000000001 = none ∧
    decodeTableWord 32 0b00000011000000000000000000000001 = none ∧
    decodeTableWord 32 0b00010011000000000000000000000010 = none ∧
    decodeTableWord 32 0b00010000000000000000000000001000 = none ∧
    decodeTableWord 32 0b00010010000000000000000001000010 = none ∧
    decodeTableWord 32 0b01000000000000000000000000000001 = none ∧
    decodeTableWord 32 0b00010100000000000000000100000000 = none ∧
    decodeTableWord 32 0b01000111000000000000000000000000 = none := by
  decide

/-! ### One transaction on a small state: the vectors of 95_test_vectors.md L1 and L2 -/

/-- The launch state under instantiation T with IF cleared, the start of most vectors. -/
def start : State := { State.reset with IF := 0x00#8 }

/-- The state after one word; the state itself where the step does not answer a next state. -/
def after (s : State) (w : Word) (p : Payload := {}) (a : HostAnswers := HostAnswers.sample) : State :=
  match perform ⟨w, p, a⟩ s with
  | .next t => t
  | .fault _ => s
  | .refused _ => s

/-- The host's answers with the wall clock at a time of a day. -/
def atTime (h : Fin 24) (m s : Fin 60) (d : Fin 366) : HostAnswers := { HostAnswers.sample with wall := ⟨s, m, h, d⟩ }

/-- E1, E7, E8: a reserved word and a kind at or above N. -/
theorem test_reserved_word_faults :
    (after start 0x00000000#32).response = some (.faulted .illegalOperation) ∧
    (after start 0x10000007#32).response = some (.faulted .invalidKind) ∧ (after start 0x10000007#32).IF = 0x00#8 ∧
    (after start 0x12000085#32).fault = some .invalidKind ∧ (after start 0x12000085#32).IE = 0x00#8 := by
  decide

/-- E11, E17: the first code is kept and the divider does not move. -/
theorem test_faulted_state_is_stuck :
    (after { start with fault := some .invalidKind } 0x03000000#32).response = some (.faulted .invalidKind) ∧
    (after { start with fault := some .invalidKind } 0x03000000#32).divider = 0x0000#16 ∧
    (after { start with fault := some .illegalOperation } 0xFF000000#32).fault = some .illegalOperation := by
  decide

/-- E13, E14, B3: the two unmapped accesses. -/
theorem test_unmapped :
    (after start 0x01FF4000#32).fault = some .unmappedAddress ∧
    (after start 0x02800000#32).fault = some .unmappedAddress ∧
    (after start 0x01FF6800#32).response = some (.faulted .unmappedAddress) := by
  decide

/-- I1, I2. -/
theorem test_req : (after start 0x10000002#32).IF = 0x04#8 ∧
    (after { start with IF := 0x04#8 } 0x10000002#32).IF = 0x04#8 := by
  decide

/-- I3, I4. -/
theorem test_cancel : (after { start with IF := 0x14#8 } 0x11000004#32).IF = 0x04#8 ∧
    (after { start with IF := 0x04#8 } 0x11000000#32).IF = 0x04#8 := by
  decide

/-- I5, I6. -/
theorem test_setie : (after start 0x12000084#32).IE = 0x10#8 ∧
    (after { start with IE := 0x10#8 } 0x12000004#32).IE = 0x00#8 := by
  decide

/-- I7, I15. -/
theorem test_setime_reti : (after start 0x13000001#32).IME = true ∧ (after start 0x15000000#32).IME = true ∧
    (after { start with IME := true } 0x13000000#32).IME = false := by
  decide

/-- I8. -/
theorem test_sethandler : (after start 0x16000082#32).handlers = [false, false, true, false, false] := by
  decide

/-- The start with IF, IE and the handler table given, and IME true. -/
def asking (f e : Byte) (hs : List Bool) : State := { start with IF := f, IE := e, IME := true, handlers := hs }

/-- The parts of a state that SERVICE writes. -/
def served (s : State) : Option Response × Byte × Bool × Svc := (s.response, s.IF, s.IME, s.svc)

/-- I9, I20: a handler runs; a kind that is not enabled is passed over. -/
theorem test_service_pending :
    served (after (asking 0x14 0x1F [false, false, true, false, false]) 0x14000000#32) =
      (some .pending, 0x10#8, false, .inHandler 2) ∧
    served (after (asking 0x18 0x10 [false, false, false, false, true]) 0x14000000#32) =
      (some .pending, 0x08#8, false, .inHandler 4) := by
  decide

/-- I12, I17, I18: inside a handler, without a handler, and with bits that are no kinds. -/
theorem test_service_other :
    (after { start with svc := .inHandler 2 } 0x14000000#32).fault = some .reentrantService ∧
    served (after (asking 0x01 0x01 start.handlers) 0x14000000#32) = (some (.service .NONE), 0x00#8, false, .idle) ∧
    served (after (asking 0xE0 0xFF start.handlers) 0x14000000#32) = (some (.service .NONE), 0xE0#8, true, .idle) := by
  decide

/-- I10, I11, I13. -/
theorem test_hret :
    (after { start with svc := .inHandler 2 } 0x17000001#32).response = some (.service .HANDLED_OK) ∧
    (after { start with svc := .inHandler 2 } 0x17000000#32).response = some (.service .HANDLED_FAIL) ∧
    (after { start with svc := .inHandler 2 } 0x17000001#32).svc = .idle ∧
    (after start 0x17000001#32).fault = some .illegalOperation := by
  decide

/-- I21-I24. -/
theorem test_if_ie : (after { start with IF := 0x14#8 } 0x01FF0F00#32).response = some (.byte 0x14#8) ∧
    (after { start with IF := 0x14#8 } 0x02FF0FE0#32).IF = 0xE0#8 ∧ (after start 0x02FFFF04#32).IE = 0x04#8 ∧
    (after { start with IE := 0xA5#8 } 0x01FFFF00#32).response = some (.byte 0xA5#8) := by
  decide

/-- A Timer state: divider, speed, enable, TIMA and TMA. -/
def timer (d : BitVec 16) (speed : BitVec 2) (on : Bool) (c m : Byte) : State :=
  { start with divider := d, clockSpeed := speed, enabled := on, counter := c, modulo := m }

/-- T1-T8, T12: the edge at each speed, and no edge. -/
theorem test_tick_edge :
    (after (timer 0x000F 1 true 0x10 0) 0x03000000#32).counter = 0x11#8 ∧
    (after (timer 0x000F 1 true 0x10 0) 0x03000000#32).oldDivider = 0x000F#16 ∧
    (after (timer 0x0007 1 true 0x10 0) 0x03000000#32).counter = 0x10#8 ∧
    (after (timer 0x03FF 0 true 0x10 0) 0x03000000#32).counter = 0x11#8 ∧
    (after (timer 0x01FF 0 true 0x10 0) 0x03000000#32).counter = 0x10#8 ∧
    (after (timer 0xFFFF 3 true 0x10 0) 0x03000000#32).divider = 0x0000#16 ∧
    (after (timer 0xFFFF 3 true 0x10 0) 0x03000000#32).counter = 0x11#8 ∧
    (after (timer 0x003F 2 true 0x10 0) 0x03000000#32).counter = 0x11#8 ∧
    (after (timer 0x001F 2 true 0x10 0) 0x03000000#32).counter = 0x10#8 ∧
    (after (timer 0x000F 1 false 0x10 0) 0x03000000#32).counter = 0x10#8 := by
  decide

/-- T9, T10: the overflow reloads and requests kind 2. -/
theorem test_tick_overflow :
    (after (timer 0x000F 1 true 0xFF 0xAB) 0x03000000#32).counter = 0xAB#8 ∧
    (after (timer 0x000F 1 true 0xFF 0xAB) 0x03000000#32).IF = 0x04#8 ∧
    (after (timer 0x000F 1 true 0xFF 0xFF) 0x03000000#32).counter = 0xFF#8 := by
  decide

/-- T13-T16. -/
theorem test_div : (after { start with divider := 0x1234#16 } 0x02FF045A#32).divider = 0x0000#16 ∧
    (after (timer 0x0008 1 true 0x10 0) 0x02FF0400#32).counter = 0x10#8 ∧
    (after { start with divider := 0xABCD#16 } 0x01FF0400#32).response = some (.byte 0xAB#8) := by
  decide

/-- T17-T20. -/
theorem test_tima_tma : (after start 0x02FF05FE#32).counter = 0xFE#8 ∧ (after start 0x02FF0640#32).modulo = 0x40#8 ∧
    (after { start with counter := 0x42#8 } 0x01FF0500#32).response = some (.byte 0x42#8) ∧
    (after { start with modulo := 0x40#8 } 0x01FF0600#32).response = some (.byte 0x40#8) := by
  decide

/-- T21, T23, T24. -/
theorem test_tac_write : (after start 0x02FF07FD#32).clockSpeed = 1#2 ∧ (after start 0x02FF07FD#32).enabled = true ∧
    (after start 0x02FF0703#32).clockSpeed = 3#2 ∧ (after start 0x02FF0703#32).enabled = false ∧
    (after (timer 0x0008 0 true 0x10 0) 0x02FF0705#32).counter = 0x10#8 := by
  decide

/-- T22, J2, J8, J9, whatever the draws are. -/
theorem test_reads_with_draws (n : Nat) :
    State.tacByte { timer 0 1 true 0 0 with draws := n } &&& 0x07#8 = 0x05#8 ∧
    State.joypByte { start with draws := n, selectButtons := true } &&& 0x3F#8 = 0x1F#8 ∧
    State.joypByte { start with draws := n, selectButtons := true, selectDPad := true, buttons := 0xE#4, dPad := 0xB#4 } &&&
      0x3F#8 = 0x0E#8 ∧
    State.joypByte { start with draws := n } &&& 0x30#8 = 0x30#8 := by
  have h1 : ∀ x : BitVec 5, (x ++ BitVec.ofBool true ++ 1#2 : Byte) &&& 0x07#8 = 0x05#8 := by decide
  have h2 : ∀ x : BitVec 2, (x ++ BitVec.ofBool false ++ BitVec.ofBool true ++ 0xF#4 : Byte) &&& 0x3F#8 = 0x1F#8 := by decide
  have h3 : ∀ x : BitVec 2, (x ++ BitVec.ofBool false ++ BitVec.ofBool false ++ 0xE#4 : Byte) &&& 0x3F#8 = 0x0E#8 := by decide
  have h4 : ∀ (x : BitVec 2) (y : BitVec 4), (x ++ BitVec.ofBool true ++ BitVec.ofBool true ++ y : Byte) &&& 0x30#8 = 0x30#8 := by
    decide
  exact ⟨h1 _, h2 _, h3 _, h4 _ _⟩

/-- J1, J13. -/
theorem test_joyp_write : (after start 0x02FF0010#32).selectButtons = true ∧ (after start 0x02FF0010#32).selectDPad = false ∧
    (after { start with buttons := 0xE#4 } 0x02FF00CF#32).selectDPad = true ∧
    (after { start with buttons := 0xE#4 } 0x02FF00CF#32).buttons = 0xE#4 := by
  decide

/-- J3, J5, J6, J12. -/
theorem test_press :
    (after { start with selectButtons := true } 0x20000000#32).buttons = 0xE#4 ∧
    (after { start with selectButtons := true } 0x20000000#32).IF = 0x10#8 ∧
    (after { start with selectButtons := true, buttons := 0xE#4 } 0x20000000#32).IF = 0x00#8 ∧
    (after start 0x20000006#32).dPad = 0xB#4 ∧ (after start 0x20000006#32).IF = 0x00#8 ∧
    (after { start with selectButtons := true, selectDPad := true } 0x20000007#32).dPad = 0x7#4 := by
  decide

/-- J10, J11. -/
theorem test_release : (after { start with dPad := 0xB#4 } 0x21000006#32).dPad = 0xF#4 ∧
    (after start 0x21000006#32).dPad = 0xF#4 ∧ (after start 0x21000006#32).IF = 0x00#8 := by
  decide

/-- A clock state: 03:20:10 of day 100. -/
def clock : State := start.setRtcFields ⟨10#8, 20#8, 3#8, 100#8, 0#8⟩

/-- C1, C2. -/
theorem test_latch : (after clock 0x30000000#32 {} (atTime 3 20 10 100)).IF = 0x00#8 ∧
    (after clock 0x30000000#32 {} (atTime 3 20 11 100)).seconds = 11#8 ∧
    (after clock 0x30000000#32 {} (atTime 3 20 11 100)).IF = 0x08#8 := by
  decide

/-- C3. -/
theorem test_latch_write : (after clock 0x02FF655A#32 {} (atTime 23 59 59 300)).rtcFields = ⟨59#8, 59#8, 23#8, 0x2C#8, 0x01#8⟩ ∧
    (after clock 0x02FF655A#32 {} (atTime 23 59 59 300)).IF = 0x08#8 := by
  decide

/-- C4, C5, with each register's own value. -/
theorem test_rtc_reads :
    (after clock 0x01FF6000#32).response = some (.byte 0x0A#8) ∧ (after clock 0x01FF6100#32).response = some (.byte 0x14#8) ∧
    (after clock 0x01FF6200#32).response = some (.byte 0x03#8) ∧ (after clock 0x01FF6300#32).response = some (.byte 0x64#8) ∧
    (after clock 0x01FF6400#32).response = some (.byte 0x00#8) := by
  decide

/-- C7, C8, E15, E16, and the writes of RTC_M, RTC_H and RTC_DL (R241-R243). -/
theorem test_read_only_writes :
    (after clock 0x02FF6000#32).fault = some .readOnlyWrite ∧ (after clock 0x02FF6440#32).fault = some .readOnlyWrite ∧
    (after clock 0x02FF6105#32).fault = some .readOnlyWrite ∧ (after clock 0x02FF6205#32).fault = some .readOnlyWrite ∧
    (after clock 0x02FF6305#32).fault = some .readOnlyWrite ∧ (after clock 0x02200001#32).fault = some .readOnlyWrite ∧
    (after clock 0x02400000#32).fault = some .readOnlyWrite ∧ (after clock 0x02FF6000#32).seconds = 10#8 := by
  decide

/-- The state after S1: "font" loaded into bank 0. -/
def loaded : State := after start 0x42000001#32 { name := ['f', 'o', 'n', 't'], bytes := [0x11#8, 0x22#8, 0x33#8] }

/-- The state after S4: "map" loaded into bank 2. -/
def twoLoaded : State :=
  after { loaded with currentBank := 2#16 } 0x42000000#32 { name := ['m', 'a', 'p'], bytes := [0xA0#8, 0xA1#8] }

/-- S1, S2, S4. -/
theorem test_load : loaded.response = some (.handle ⟨3, 0, 0#16⟩) ∧ loaded.fill = [3, 0, 0, 0] ∧
    (after loaded 0x42000001#32 { name := ['t'], bytes := [0x44#8] }).response = some (.handle ⟨1, 3, 0#16⟩) ∧
    twoLoaded.response = some (.handle ⟨2, 0, 2#16⟩) ∧ twoLoaded.fill = [3, 0, 2, 0] := by
  decide

/-- S7-S13, S16. -/
theorem test_load_checks :
    (after loaded 0x42000001#32 { name := ['f', 'o', 'n', 't'], bytes := [1#8] }).response = some (.fail .duplicateName) ∧
    (after { start with fill := [16383, 0, 0, 0] } 0x42000001#32 { name := ['x'], bytes := [1#8, 2#8] }).response =
      some (.fail .noSpace) ∧
    (after { start with fill := [16383, 0, 0, 0] } 0x42000001#32 { name := ['y'], bytes := [1#8] }).response =
      some (.handle ⟨1, 16383, 0#16⟩) ∧
    (after { start with fill := [16384, 0, 0, 0] } 0x42000001#32 { name := ['z'] }).response =
      some (.handle ⟨0, 16384, 0#16⟩) ∧
    (after { start with currentBank := 9#16 } 0x42000000#32 { name := ['q'], bytes := [1#8] }).response =
      some (.fail .bankOutOfRange) ∧
    (after start 0x42000001#32 { bytes := [1#8] }).fault = some .invalidName ∧
    (after start 0x42000001#32 { name := List.replicate 33 'n' }).fault = some .invalidName ∧
    (after start 0x42000001#32 { name := ['w'], bytes := [1#8] } { HostAnswers.sample with alloc := false }).response =
      some (.fail .allocFail) := by
  decide

/-- S30, and R266's delegation. -/
theorem test_loadfile :
    (after loaded 0x43000001#32 { name := ['f', 'o', 'n', 't'] } { HostAnswers.sample with file := none }).response =
      some (.fail .fileError) ∧
    (after start 0x43000001#32 { name := ['f'] } { HostAnswers.sample with file := some [1#8, 2#8] }).response =
      some (.handle ⟨2, 0, 0#16⟩) := by
  decide

/-- S5, S6, S27 and L1.7. -/
theorem test_readbyte : (after twoLoaded 0x45400100#32).response = some (.byte 0xA1#8) ∧
    (after twoLoaded 0x45000200#32).response = some (.byte 0x33#8) ∧
    (after { twoLoaded with currentBank := 4#16 } 0x45400000#32).response = some (.fail .bankUnmapped) ∧
    (after start 0x45800000#32).fault = some .addressOutOfWindow := by
  decide

/-- S28 and program 3: a byte no load has written is the parameter's. -/
theorem test_initial_content :
    (after { start with currentBank := 9#16 } 0x453FFF00#32).response = some (.byte (Config.bankInitContent 0 0x3FFF)) := by
  rfl

/-- S14, S15 and L1.8. -/
theorem test_lookup : (after loaded 0x46000000#32 { name := List.replicate 33 'n' }).response = some .absent ∧
    (after loaded 0x46000000#32 { name := ['F', 'o', 'n', 't'] }).response = some .absent ∧
    (after twoLoaded 0x46000000#32 { name := ['f', 'o', 'n', 't'] }).response = some (.handle ⟨3, 0, 0#16⟩) := by
  decide

/-- S3, S17, S18. -/
theorem test_setbank_goto : (after start 0x41000200#32).currentBank = 2#16 ∧
    (after start 0x44000000#32 { handle := ⟨2, 0, 2#16⟩ }).currentBank = 2#16 ∧
    (after { start with bankCount := 2 } 0x44000000#32 { handle := ⟨2, 0, 2#16⟩ }).response = some (.fail .bankOutOfRange) := by
  decide

/-- The state after S19: shrunk to two banks. -/
def shrunk : State := after twoLoaded 0x40000100#32

/-- S19, S22. -/
theorem test_setbankcount : shrunk.bankCount = 2 ∧ shrunk.fill = [3, 0] ∧ shrunk.currentBank = 2#16 ∧
    shrunk.handles = twoLoaded.handles ∧ (after shrunk 0x40000200#32).fill = [3, 0, 0] ∧
    (after start 0x40000100#32 {} { HostAnswers.sample with alloc := false }).response = some (.fail .allocFail) := by
  decide

/-- S20, S21, program 3: window reads of the bus. -/
theorem test_window_reads : (after shrunk 0x01400000#32).response = some (.fail .bankUnmapped) ∧
    (after shrunk 0x01000000#32).response = some (.byte 0x11#8) ∧
    (after twoLoaded 0x01400100#32).response = some (.byte 0xA1#8) := by
  decide

/-- S24, S25. -/
theorem test_bank_registers : (after { start with currentBank := 0x0002#16 } 0x02FF6601#32).currentBank = 0x0102#16 ∧
    (after { start with currentBank := 0x0102#16 } 0x02FF6705#32).currentBank = 0x0105#16 := by
  decide

/-- C6, S26: a read that is a draw answers a byte and latches nothing. -/
theorem test_draw_reads : (after clock 0x01FF6500#32).rtcFields = clock.rtcFields ∧
    (∃ x, (after clock 0x01FF6500#32).response = some (.byte x)) ∧
    (∃ x, (after clock 0x01FF6600#32).response = some (.byte x)) ∧
    (∃ x, (after clock 0x01FF6700#32).response = some (.byte x)) :=
  ⟨by decide, ⟨_, rfl⟩, ⟨_, rfl⟩, ⟨_, rfl⟩⟩

/-! ### Witnesses: states and operands that meet the hypotheses of each statement, at the boundary values of its clauses -/

theorem reset_inv : State.reset.Inv where
  config := instT_valid
  handlerTable := rfl
  phase := by intro k h; cases h
  bankRange := ⟨by decide, by decide⟩
  fillTable := rfl
  originTable := rfl
  fillRange := by decide
  banksCanonical := by decide
  loadedBelowFill := by decide
  fillLoaded := by
    intro b o _ h
    have : ∀ b, State.reset.fillOf b = 0 := by
      intro b
      show ([0, 0, 0, 0] : List Nat).getD b 0 = 0
      rcases b with _ | _ | _ | _ | b <;> rfl
    rw [this] at h
    cases h
  handlesCanonical := by decide
  handleWidths := by decide

theorem start_inv : start.Inv := { reset_inv with }

/-- An instance with three kinds, the fewest R7 allows, and eight, the most. -/
def fewKinds : Config := { Config.instT with intKindCount := 3, kindTimer := 0, kindJoypad := 2, kindRtc := 1 }

def allKinds : Config := { Config.instT with intKindCount := 8 }

theorem witness_valid_configurations : fewKinds.Valid ∧ allKinds.Valid := by
  obtain ⟨_, _, _, _, _, _, _, _, h1, h2, h3, h4⟩ := instT_valid
  exact ⟨⟨by decide, by decide, by decide, by decide, by decide, by decide, by decide, by decide, h1, h2, h3, h4⟩,
    ⟨by decide, by decide, by decide, by decide, by decide, by decide, by decide, by decide, h1, h2, h3, h4⟩⟩

/-- Both ends of the count, a flag of each value and a button of each group. -/
theorem witness_EncodedWordsHoldTheirFields : (1 ≤ 1 ∧ 1 ≤ 65536) ∧ (1 ≤ 65536 ∧ 65536 ≤ 65536) ∧
    (∀ i, (fun i => (encode .instT i).toNat) i = (encode .instT i).toNat) ∧ 1 = (if true then 1 else 0) ∧
    0 = (if Group.buttons = .dPad then 1 else 0) :=
  ⟨by decide, by decide, fun _ => rfl, rfl, rfl⟩

theorem witness_DecodeOfEncodeIsTheInstruction : Config.instT.Valid ∧
    Instr.wellFormed .instT (.setbankcount 65536) = true ∧ Instr.wellFormed .instT (.setie 7 true) = true ∧
    Instr.wellFormed .instT (.rdUnmapped 0x8000#16) = true :=
  ⟨instT_valid, by decide, by decide, by decide⟩

theorem witness_EncodeOfDecodeIsTheWord : Payload.sample.wellFormed = true ∧
    decode .instT 0x40FFFF00#32 Payload.sample = .ok (.setbankcount 65536) ∧
    decode .instT 0x44000000#32 { handle := ⟨16384, 16384, 0xFFFF#16⟩ } = .ok (.gotoHandle ⟨16384, 16384, 0xFFFF#16⟩) :=
  ⟨by decide, rfl, rfl⟩

/-- A reserved word, a word of a row, and two words of neighbouring rows. -/
theorem witness_RejectedWordsAreTheReservedOnes : (∀ r ∈ opcodeMap, 0x00000000#32 &&& r.1 ≠ r.2) ∧
    (0xFFFFFFFF#32, 0x03000000#32) ∈ opcodeMap ∧ 0x03000000#32 &&& 0xFFFFFFFF#32 = 0x03000000#32 ∧
    (∀ r ∈ opcodeMap, 0x03000001#32 &&& r.1 ≠ r.2) := by
  refine ⟨?_, ?_, by decide, ?_⟩ <;> simp [opcodeMap]

theorem witness_ReservedWordFaultsOnly : start.fault = none ∧ ∀ r ∈ opcodeMap, 0xFF000000#32 &&& r.1 ≠ r.2 := by
  refine ⟨rfl, ?_⟩
  simp [opcodeMap]

theorem witness_AddressDecodeFindsEveryTarget : Config.instT.Valid ∧ (0x3FFF#16 : Addr).toNat ≤ 0x3FFF ∧
    0x4000 ≤ (0x4000#16 : Addr).toNat ∧ (0x7FFF#16 : Addr).toNat ≤ 0x7FFF ∧ 0x8000 ≤ (0x8000#16 : Addr).toNat ∧
    0x8000#16 ∉ Config.instT.addresses ∧ 0xFF68#16 ∉ Config.instT.addresses :=
  ⟨instT_valid, by decide, by decide, by decide, by decide, by decide, by decide⟩

theorem witness_StepRunsTheDecodedTransaction : (∃ tx, (start.withFetchWord 32 0x03000000).pending = [tx] ∧
    decode start.cfg tx.word tx.payload = .ok .tick) ∧ start.pending = [] :=
  ⟨⟨_, rfl, rfl⟩, rfl⟩

theorem witness_FaultsAreStickyAndChangeNothingElse :
    { start with fault := some .readOnlyWrite }.fault = some .readOnlyWrite ∧ start.fault = none ∧
    ∃ t, perform ⟨0x02FF6105#32, {}, HostAnswers.sample⟩ start = .next t ∧ t.fault = some .readOnlyWrite :=
  ⟨rfl, rfl, _, rfl, rfl⟩

theorem witness_FaultedRunNeverRecovers : { start with fault := some .addressOutOfWindow }.fault = some .addressOutOfWindow :=
  rfl

/-- Every clause of FaultCodesAreRaisedAsTabled, the code raised. -/
theorem witness_FaultCodesAreRaisedAsTabled : start.fault = none ∧
    (∃ t, exec (.hret true) start = .next t ∧ t.fault = some .illegalOperation) ∧
    (∃ t, exec (.req 5) start = .next t ∧ t.fault = some .invalidKind) ∧
    (∃ t, exec (.rdUnmapped 0x8000#16) start = .next t ∧ t.fault = some .unmappedAddress) ∧
    (∃ t, exec (.wrRomx 0x3FFF#14 0#8) start = .next t ∧ t.fault = some .readOnlyWrite) ∧
    (∃ t, exec .service { start with svc := .inHandler 4 } = .next t ∧ t.fault = some .reentrantService) ∧
    (∃ t, exec (.setbankcount 65537) start = .next t ∧ t.fault = some .invalidBankCount) ∧
    (∃ t, exec (.load true [] []) start = .next t ∧ t.fault = some .invalidName) ∧
    (∃ t, exec (.loadfile true (List.replicate 33 'n') []) start = .next t ∧ t.fault = some .invalidName) ∧
    (∃ t, exec (.readbyte 0x8000#16) start = .next t ∧ t.fault = some .addressOutOfWindow) :=
  ⟨rfl, ⟨_, rfl, rfl⟩, ⟨_, rfl, rfl⟩, ⟨_, rfl, rfl⟩, ⟨_, rfl, rfl⟩, ⟨_, rfl, rfl⟩, ⟨_, rfl, rfl⟩, ⟨_, rfl, rfl⟩,
    ⟨_, rfl, rfl⟩, ⟨_, rfl, rfl⟩⟩

/-- Every clause of FailuresLeaveTheStateUnchanged, the failure answered. -/
theorem witness_FailuresLeaveTheStateUnchanged : start.fault = none ∧ 1 ≤ start.bankCount ∧
    (∃ t, exec (.lookup ['a']) start = .next t ∧ t.response = some .absent) ∧
    (∃ t, exec (.readbyte 0x4000#16) { start with currentBank := 4#16 } = .next t ∧
      t.response = some (.fail .bankUnmapped)) ∧
    (∃ t, exec (.rdRomx 0#14) { start with currentBank := 4#16 } = .next t ∧
      t.response = some (.fail .bankUnmapped)) ∧
    (∃ t, exec (.gotoHandle ⟨0, 0, 4#16⟩) start = .next t ∧ t.response = some (.fail .bankOutOfRange)) ∧
    (∃ t, exec (.load false ['a'] []) { start with currentBank := 4#16 } = .next t ∧
      t.response = some (.fail .bankOutOfRange)) ∧
    (∃ t, exec (.loadfile false ['a'] []) { start with currentBank := 4#16 } = .next t ∧
      t.response = some (.fail .bankOutOfRange)) ∧
    (∃ t, exec (.load true ['f', 'o', 'n', 't'] []) loaded = .next t ∧ t.response = some (.fail .duplicateName)) ∧
    (∃ t, exec (.load true ['a'] [0#8]) { start with fill := [16384, 0, 0, 0] } = .next t ∧
      t.response = some (.fail .noSpace)) ∧
    (∃ t, exec (.setbankcount 1) { start with answers := { HostAnswers.sample with alloc := false } } = .next t ∧
      t.response = some (.fail .allocFail)) ∧
    (∃ t, exec (.loadfile true ['a'] []) { start with answers := { HostAnswers.sample with file := none } } = .next t ∧
      t.response = some (.fail .fileError)) :=
  ⟨rfl, by decide, ⟨_, rfl, rfl⟩, ⟨_, rfl, rfl⟩, ⟨_, rfl, rfl⟩, ⟨_, rfl, rfl⟩, ⟨_, rfl, rfl⟩, ⟨_, rfl, rfl⟩, ⟨_, rfl, rfl⟩,
    ⟨_, rfl, rfl⟩, ⟨_, rfl, rfl⟩, ⟨_, rfl, rfl⟩⟩

/-- The kind clauses of REQ, CANCEL, SETIE and SETHANDLER: the last kind that exists, the first that does not, and an
instance in which every encodable kind exists. -/
theorem witness_kind_operations : start.fault = none ∧ (4 : Kind).val < start.cfg.intKindCount ∧
    start.cfg.intKindCount ≤ (5 : Kind).val ∧ (7 : Kind).val < allKinds.intKindCount ∧
    start.handlers.length = start.cfg.intKindCount := by
  decide

/-- The one hypothesis of the statements on SETIME and RETI, the verbatim registers, TAC, JOYP writes, RTC reads and the
window and bank-select registers; and an instruction of each kind of read-only write. -/
theorem witness_running : start.fault = none ∧ (∃ v, Instr.wrRtcM 0x05#8 = .wrRtcM v) ∧
    ∃ a v, Instr.wrRomx 0x3FFF#14 0x00#8 = .wrRomx a v :=
  ⟨rfl, ⟨_, rfl⟩, _, _, rfl⟩

/-- The four clauses of ServiceTakesTheLowestEligibleKind, the last with and without a handler, for kind 4 and kind 0. -/
theorem witness_ServiceTakesTheLowestEligibleKind :
    { start with svc := .inHandler 4 }.svc = .inHandler 4 ∧ (start.svc = .idle ∧ start.IME = false) ∧
    (∀ k : Kind, k.val < start.cfg.intKindCount → (asking 0xE0 0xFF []).IF.getLsbD k.val = true →
      (asking 0xE0 0xFF []).IE.getLsbD k.val = false) ∧
    (∀ j : Kind, j.val < (4 : Kind).val → (asking 0x18 0x10 [false, false, false, false, true]).IF.getLsbD j.val = true →
      (asking 0x18 0x10 [false, false, false, false, true]).IE.getLsbD j.val = false) ∧
    (asking 0x18 0x10 [false, false, false, false, true]).requesting 4 = true ∧
    (asking 0x18 0x10 [false, false, false, false, true]).hasHandler 4 = true ∧
    (asking 0x01 0x01 start.handlers).requesting 0 = true ∧ (asking 0x01 0x01 start.handlers).hasHandler 0 = false := by
  decide

theorem witness_HretEndsTheHandler : { start with svc := .inHandler 0 }.svc = .inHandler 0 ∧ start.svc = .idle := by decide

/-- Kinds 2 and 3 of L1.9, with and without a handler for the first. -/
theorem witness_TwoServicesFollowPriority :
    let s := asking 0x0C 0x1F [false, false, true, false, false]
    s.fault = none ∧ s.svc = .idle ∧ s.IME = true ∧ (2 : Kind).val < (3 : Kind).val ∧ s.requesting 2 = true ∧
      s.requesting 3 = true ∧ (∀ m : Kind, m.val < (3 : Kind).val → m ≠ 2 → s.requesting m = false) ∧
      s.hasHandler 2 = true ∧ (asking 0x0C 0x1F start.handlers).hasHandler 2 = false := by
  decide

/-- A pending bit that a transaction clears: SERVICE, CANCEL and WR IF. -/
theorem witness_PendingEndsOnlyByServiceOrCancel :
    (∃ t, exec .service (asking 0x10 0x10 start.handlers) = .next t ∧
      (asking 0x10 0x10 start.handlers).IF.getLsbD (4 : Kind).val = true ∧ t.IF.getLsbD (4 : Kind).val = false) ∧
    (∃ t, exec (.cancel 0) (asking 0x01 0 start.handlers) = .next t ∧
      (asking 0x01 0 start.handlers).IF.getLsbD (0 : Kind).val = true ∧ t.IF.getLsbD (0 : Kind).val = false) ∧
    (∃ t, exec (.wrIf 0x7F#8) (asking 0x80 0 start.handlers) = .next t ∧
      (asking 0x80 0 start.handlers).IF.getLsbD (7 : Kind).val = true ∧ t.IF.getLsbD (7 : Kind).val = false) :=
  ⟨⟨_, rfl, by decide, by decide⟩, ⟨_, rfl, by decide, by decide⟩, ⟨_, rfl, by decide, by decide⟩⟩

/-- An IF bit that each of the five sources sets. -/
theorem witness_InterruptSources :
    (∃ t, exec .tick (timer 0x000F 1 true 0xFF 0) = .next t ∧ start.IF.getLsbD 2 = false ∧ t.IF.getLsbD 2 = true) ∧
    (SpeedSelects (timer 0x000F 1 true 0xFF 0).clockSpeed 3 ∧
      (timer 0x000F 1 true 0xFF 0).divider.toNat % 2 ^ 4 = 2 ^ 4 - 1) ∧
    (∃ t, exec (.press .buttons 3) { start with selectButtons := true } = .next t ∧ t.IF.getLsbD 4 = true) ∧
    (∃ t, exec .latch clock = .next t ∧ t.IF.getLsbD 3 = true) ∧
    (∃ t, exec (.wrRtcLatch 0x5A#8) clock = .next t ∧ t.IF.getLsbD 3 = true) ∧
    (∃ t, exec (.req 4) start = .next t ∧ t.IF.getLsbD 4 = true) ∧
    (∃ t, exec (.wrIf 0x80#8) start = .next t ∧ t.IF.getLsbD 7 = true) :=
  ⟨⟨_, rfl, by decide, by decide⟩, ⟨Or.inr (Or.inl ⟨rfl, rfl⟩), by decide⟩, ⟨_, rfl, by decide⟩, ⟨_, rfl, by decide⟩,
    ⟨_, rfl, by decide⟩, ⟨_, rfl, by decide⟩, ⟨_, rfl, by decide⟩⟩

theorem witness_WritersOfInterruptControl :
    (∃ t, exec (.setie 4 true) start = .next t ∧ t.IE ≠ start.IE) ∧
    (∃ t, exec .reti start = .next t ∧ t.IME ≠ start.IME) ∧
    (∃ t, exec (.sethandler 4 true) start = .next t ∧ t.handlers ≠ start.handlers) ∧
    (∃ t, exec (.hret true) { start with svc := .inHandler 1 } = .next t ∧ t.svc ≠ .inHandler 1) :=
  ⟨⟨_, rfl, by decide⟩, ⟨_, rfl, by decide⟩, ⟨_, rfl, by decide⟩, ⟨_, rfl, by decide⟩⟩

/-- The three counter clauses of TickAdvancesDividerAndClocksOnFallingEdge, and each speed of the table. -/
theorem witness_TickAdvancesDividerAndClocksOnFallingEdge :
    SpeedSelects (timer 0x01FF 0 true 0x10 0).clockSpeed 9 ∧ SpeedSelects (timer 0 1 true 0 0).clockSpeed 3 ∧
    SpeedSelects (timer 0 2 true 0 0).clockSpeed 5 ∧ SpeedSelects (timer 0 3 true 0 0).clockSpeed 7 ∧
    ¬ ((timer 0x01FF 0 true 0x10 0).divider.toNat % 2 ^ 10 = 2 ^ 10 - 1) ∧
    (timer 0x000F 1 true 0xFE 0).divider.toNat % 2 ^ 4 = 2 ^ 4 - 1 ∧ (timer 0x000F 1 true 0xFE 0).counter.toNat < 255 ∧
    (timer 0xFFFF 1 true 0xFF 0).divider.toNat % 2 ^ 4 = 2 ^ 4 - 1 ∧ (timer 0xFFFF 1 true 0xFF 0).counter.toNat = 255 := by
  unfold SpeedSelects
  decide

/-- A TICK word as the caller issues it. -/
def tickTx : Transaction := ⟨0x03000000#32, {}, HostAnswers.sample⟩

/-- Eleven ticks from divider 5 at speed 1 clock once (T26), below the overflow; they overflow from TIMA 0xFF; 32 ticks from
TIMA 0xFF with TMA 0xFF clock twice and overflow twice; no ticks clock nothing. -/
theorem witness_CounterClocksOncePerPeriod :
    (AllTicks (List.replicate 11 tickTx) ∧ AllTicks (List.replicate 32 tickTx) ∧ AllTicks []) ∧
    (timer 0x0005 1 true 0x10 0).fault = none ∧ SpeedSelects (timer 0x0005 1 true 0x10 0).clockSpeed 3 ∧
    1 = ((timer 0x0005 1 true 0x10 0).divider.toNat % 2 ^ 4 + (List.replicate 11 tickTx).length) / 2 ^ 4 ∧
    (timer 0x0005 1 true 0xFE 0).counter.toNat + 1 < 256 ∧ 256 ≤ (timer 0x0005 1 true 0xFF 0).counter.toNat + 1 ∧
    2 = ((timer 0x0000 1 true 0xFF 0xFF).divider.toNat % 2 ^ 4 + (List.replicate 32 tickTx).length) / 2 ^ 4 ∧
    256 ≤ (timer 0x0000 1 true 0xFF 0xFF).counter.toNat + 2 ∧
    0 = ((timer 0x0005 1 true 0x10 0).divider.toNat % 2 ^ 4 + ([] : List Transaction).length) / 2 ^ 4 := by
  have h (n : Nat) : AllTicks (List.replicate n tickTx) := fun tx h => by rw [List.eq_of_mem_replicate h]; rfl
  exact ⟨⟨h 11, h 32, h 0⟩, by decide, Or.inr (Or.inl ⟨rfl, rfl⟩), by decide, by decide, by decide, by decide, by decide,
    by decide⟩

theorem witness_DisabledTimerNeverCounts : AllTicks [tickTx] ∧ (timer 0x03FF 0 false 0x12 0).fault = none ∧
    (timer 0x03FF 0 false 0x12 0).enabled = false := by
  refine ⟨fun tx h => ?_, rfl, rfl⟩
  rw [List.mem_singleton.1 h]
  rfl

theorem witness_DivReadsHighByteAndClearsOnWrite : { start with divider := 0xBEEF#16 }.fault = none ∧
    ∃ t, exec (.wrDiv 0x77#8) { start with divider := 0xBEEF#16 } = .next t :=
  ⟨rfl, _, rfl⟩

theorem witness_WritersOfTheTimer :
    (∃ t, exec .tick start = .next t ∧ t.divider ≠ start.divider) ∧
    (∃ t, exec (.wrDiv 0#8) (timer 5 0 true 0 0) = .next t ∧ t.divider ≠ 5#16) ∧
    (∃ t, exec .tick (timer 5 0 true 0 0) = .next t ∧ t.oldDivider ≠ 0#16) ∧
    (∃ t, exec (.wrTima 1#8) start = .next t ∧ t.counter ≠ start.counter) ∧
    (∃ t, exec (.wrTma 1#8) start = .next t ∧ t.modulo ≠ start.modulo) ∧
    (∃ t, exec (.wrTac 4#8) start = .next t ∧ t.enabled ≠ start.enabled) :=
  ⟨⟨_, rfl, by decide⟩, ⟨_, rfl, by decide⟩, ⟨_, rfl, by decide⟩, ⟨_, rfl, by decide⟩, ⟨_, rfl, by decide⟩, ⟨_, rfl, by decide⟩⟩

theorem witness_OldDividerIsUnobservable : (∃ t, exec .tick start = .next t) ∧ start.fault = none := ⟨⟨_, rfl⟩, rfl⟩

/-- A line that is 0 and one that is 1, in each group, selected and not. -/
theorem witness_PressClearsItsLineAndRequestsOnEdge : start.fault = none ∧
    ({ start with buttons := 0xE#4 }.groupField .buttons).getLsbD (0 : Line).val = false ∧
    (start.groupField .dPad).getLsbD (3 : Line).val = true ∧ start.selected .dPad = false ∧
    { start with selectDPad := true }.selected .dPad = true := by
  decide

theorem witness_ReleaseSetsItsLine : start.fault = none ∧ (start.groupField .buttons).getLsbD (3 : Line).val = true ∧
    start.selected .buttons = false ∧ ∃ t, exec (.press .buttons 3) start = .next t :=
  ⟨rfl, rfl, rfl, _, rfl⟩

theorem witness_JoypReadShowsTheSelectedGroup : start.fault = none ∧ { start with selectButtons := true }.selectButtons = true ∧
    start.selectButtons = false ∧ { start with selectDPad := true }.selectDPad = true := by
  decide

theorem witness_WritersOfTheJoypad :
    (∃ t, exec (.press .buttons 0) start = .next t ∧ t.buttons ≠ start.buttons) ∧
    (∃ t, exec (.press .dPad 3) start = .next t ∧ t.dPad ≠ start.dPad) ∧
    (∃ t, exec (.release .dPad 3) { start with dPad := 0x7#4 } = .next t ∧ t.dPad ≠ 0x7#4 ∧
      ({ start with dPad := 0x7#4 }.groupField .dPad).getLsbD 0 = true) ∧
    (∃ t, exec (.press .buttons 0) start = .next t ∧ (t.groupField .buttons).getLsbD 1 = true) ∧
    (∃ t, exec (.press .dPad 0) { start with selectDPad := true } = .next t ∧ t.IF ≠ start.IF) ∧
    (∃ t, exec (.wrJoyp 0x20#8) start = .next t ∧ t.selectDPad ≠ start.selectDPad) :=
  ⟨⟨_, rfl, by decide⟩, ⟨_, rfl, by decide⟩, ⟨_, rfl, by decide, by decide⟩, ⟨_, rfl, by decide⟩, ⟨_, rfl, by decide⟩,
    ⟨_, rfl, by decide⟩⟩

/-- A latch that changes no field and one that does. -/
theorem witness_LatchReplacesFieldsAndRequestsOnChange :
    (∃ t, exec .latch { clock with answers := atTime 3 20 10 100 } = .next t ∧ t.rtcFields = clock.rtcFields) ∧
    (∃ t, exec .latch { clock with answers := atTime 3 20 11 100 } = .next t ∧ t.rtcFields ≠ clock.rtcFields) :=
  ⟨⟨_, rfl, by decide⟩, ⟨_, rfl, by decide⟩⟩

/-- The test form of R231 meets R231's constraint on `RTC_DERIVE`. -/
theorem testForm_lawful : RtcDerive.testForm.Lawful := by
  intro w w' ha he
  have key : ∀ {a b : Nat}, a < 256 → b < 256 → BitVec.ofNat 8 a = BitVec.ofNat 8 b → a = b := by
    intro a b h1 h2 h
    have := congrArg BitVec.toNat h
    simp only [BitVec.toNat_ofNat] at this
    omega
  have s1 := w.second.isLt; have s2 := w'.second.isLt
  have m1 := w.minute.isLt; have m2 := w'.minute.isLt
  have h1 := w.hour.isLt; have h2 := w'.hour.isLt
  have hs := key (by omega) (by omega) (congrArg RtcFields.seconds he)
  have hm := key (by omega) (by omega) (congrArg RtcFields.minutes he)
  have hh := key (by omega) (by omega) (congrArg RtcFields.hours he)
  have e : w.secondOfDay = w'.secondOfDay := by unfold WallTime.secondOfDay; rw [hs, hm, hh]
  rcases ha with ⟨_, h⟩ | ⟨h, h', _⟩ <;> omega

/-- The same second, the next second, and the next second across the end of a year. -/
theorem witness_SecondLatchRequestsOnlyAcrossASecond :
    start.cfg.rtcDerive.Lawful ∧ (∃ t, exec .latch { start with answers := atTime 3 20 10 100 } = .next t) ∧
    (atTime 3 20 10 100).wall.Adjacent (atTime 3 20 11 100).wall ∧
    (atTime 23 59 59 364).wall.Adjacent (atTime 0 0 0 0).wall ∧ (atTime 23 59 59 364).wall.Adjacent (atTime 0 0 0 365).wall :=
  ⟨testForm_lawful, ⟨_, rfl⟩, by decide, by decide, by decide⟩

/-- The clauses of SetbankcountKeepsTheCommonBanks: the counts outside the range, its ends, both answers of the host, a bank
kept and a bank added. -/
theorem witness_SetbankcountKeepsTheCommonBanks : start.fault = none ∧ start.Inv ∧ (0 < 1 ∨ 65536 < 0) ∧
    (65537 < 1 ∨ 65536 < 65537) ∧ start.answers.alloc = true ∧
    { start with answers := { HostAnswers.sample with alloc := false } }.answers.alloc = false ∧
    (3 < start.bankCount ∧ 3 < 65536 ∧ 16383 < bankSize) ∧ (start.bankCount ≤ 65535 ∧ 65535 < 65536) ∧ 4 = start.bankCount :=
  ⟨rfl, start_inv, by decide, by decide, rfl, rfl, by decide, by decide, rfl⟩

theorem witness_BankSelectPairWritesCurrentBank : start.fault = none ∧
    Pseudo.expand (.setbank16 0x0105#16) = [.wrBankHi 0x01#8, .wrBankLo 0x05#8] := by
  decide

/-- The shortest and the longest name, and a load that fills a bank exactly. -/
theorem witness_LoadPlacesBytesAndRecordsTheHandle : start.fault = none ∧ start.Inv ∧ 1 ≤ ['a'].length ∧
    (List.replicate 32 'n').length ≤ 32 ∧ start.handles.find ['a'] = none ∧ start.currentBank.toNat < start.bankCount ∧
    start.fillOf start.currentBank.toNat + (List.replicate 16384 (0#8 : Byte)).length ≤ 16384 ∧
    start.answers.alloc = true ∧ start.answers.file = some [0x00#8] :=
  ⟨rfl, start_inv, by decide, by decide, rfl, by decide, by rw [List.length_replicate]; decide, rfl, rfl⟩

/-- The clauses of LoadChecksInOrder at the boundaries: names of 0, 1, 32 and 33 characters, a held name, bank 4 of 4, and
a bank filled to 16383. -/
theorem witness_LoadChecksInOrder : start.fault = none ∧ ([] : Name).length = 0 ∧ 32 < (List.replicate 33 'n').length ∧
    loaded.fault = none ∧ loaded.handles.find ['f', 'o', 'n', 't'] ≠ none ∧ (List.replicate 32 'n').length ≤ 32 ∧
    start.handles.find (List.replicate 32 'n') = none ∧
    { start with currentBank := 4#16 }.bankCount ≤ { start with currentBank := 4#16 }.currentBank.toNat ∧
    16384 < { start with fill := [16383, 0, 0, 0] }.fillOf 0 + [1#8, 2#8].length ∧
    { start with fill := [16383, 0, 0, 0] }.fillOf 0 + [1#8].length ≤ 16384 ∧
    { start with answers := { HostAnswers.sample with alloc := false } }.answers.alloc = false := by
  decide

theorem witness_LoadfileDelegatesToLoad : start.answers.file = some [0x00#8] ∧
    { start with answers := { HostAnswers.sample with file := none } }.answers.file = none ∧ start.fault = none := by
  decide

theorem witness_GotoSelectsTheHandlesBank : start.fault = none ∧ (⟨2, 0, 3#16⟩ : Handle).bank.toNat < start.bankCount ∧
    start.bankCount ≤ (⟨2, 0, 4#16⟩ : Handle).bank.toNat := by
  decide

theorem witness_LookupFindsTheExactName : twoLoaded.fault = none ∧ HandleTable.wf twoLoaded.handles ∧
    (['m', 'a', 'p'], ⟨2, 0, 2#16⟩) ∈ twoLoaded.handles ∧ twoLoaded.handles.find ['M', 'a', 'p'] = none := by
  decide

/-- The clauses of ReadbyteReadsTheWindows at each edge of the windows. -/
theorem witness_ReadbyteReadsTheWindows : start.fault = none ∧ (0x3FFF#16 : Addr).toNat < 16384 ∧
    16384 ≤ (0x4000#16 : Addr).toNat ∧ (0x7FFF#16 : Addr).toNat < 32768 ∧ start.currentBank.toNat < start.bankCount ∧
    start.bankCount ≤ { start with currentBank := 4#16 }.currentBank.toNat ∧ 32768 ≤ (0x8000#16 : Addr).toNat := by
  decide

theorem witness_WindowReadsMatchReadbyte : start.fault = none ∧
    { start with currentBank := 3#16 }.currentBank.toNat < start.bankCount ∧
    start.bankCount ≤ { start with currentBank := 4#16 }.currentBank.toNat := by
  decide

theorem witness_UnmappedAccessFaults : start.fault = none ∧ 0x8000 ≤ (0x8000#16 : Addr).toNat ∧
    0x8000#16 ∉ start.cfg.addresses ∧ 0xFFFE#16 ∉ start.cfg.addresses := by
  decide

/-- A load into bank 2, and a run after it: a SETBANKCOUNT 2 that the host refuses, one to 3 that keeps bank 2, a tick. -/
theorem witness_LoadedBytesReadBack : { start with currentBank := 2#16 }.Inv ∧ start.fault = none ∧
    ∃ t u, exec (.load false ['a'] [7#8]) { start with currentBank := 2#16 } = .next t ∧
      t.response = some (.handle ⟨1, 0, 2#16⟩) ∧
      (∀ tx ∈ [⟨0x40000100#32, {}, { HostAnswers.sample with alloc := false }⟩,
          ⟨0x40000200#32, {}, HostAnswers.sample⟩, tickTx],
        ∀ n, decode start.cfg tx.word tx.payload = .ok (.setbankcount n) → tx.answers.alloc = true →
          (2#16 : BitVec 16).toNat < n) ∧
      performAll [⟨0x40000100#32, {}, { HostAnswers.sample with alloc := false }⟩,
        ⟨0x40000200#32, {}, HostAnswers.sample⟩, tickTx] t = .next u ∧ u.fault = none := by
  refine ⟨{ start_inv with }, rfl, _, _, rfl, rfl, ?_, rfl, rfl⟩
  intro tx h n hd ha
  simp only [List.mem_cons, List.not_mem_nil, or_false] at h
  rcases h with rfl | rfl | rfl
  · cases ha
  · cases hd; decide
  · cases hd

theorem witness_HandlesAreNeverChanged : (∃ t, performAll [tickTx] twoLoaded = .next t) ∧
    twoLoaded.handles.find ['m', 'a', 'p'] = some ⟨2, 0, 2#16⟩ :=
  ⟨⟨_, rfl⟩, by decide⟩

theorem witness_WritersOfStoreAndClock :
    (∃ t, exec (.setbankcount 3) start = .next t ∧ t.bankCount ≠ start.bankCount) ∧
    (∃ t, exec (.load true ['a'] [7#8]) start = .next t ∧ t.fill ≠ start.fill ∧ t.handles ≠ start.handles) ∧
    (∃ t, exec (.wrBankLo 1#8) start = .next t ∧ t.currentBank ≠ start.currentBank) ∧
    (∃ t, exec .latch clock = .next t ∧ t.rtcFields ≠ clock.rtcFields) :=
  ⟨⟨_, rfl, by decide⟩, ⟨_, rfl, by decide, by decide⟩, ⟨_, rfl, by decide⟩, ⟨_, rfl, by decide⟩⟩

/-- A read word of each of the three operations. -/
theorem witness_NoReadChangesState :
    (∃ t, perform ⟨0x01FF0700#32, {}, HostAnswers.sample⟩ start = .next t ∧ t.fault = none ∧
      fieldOp 0x01FF0700#32 = 0x01#8) ∧
    (∃ t, perform ⟨0x453FFF00#32, {}, HostAnswers.sample⟩ start = .next t ∧ t.fault = none ∧
      fieldOp 0x453FFF00#32 = 0x45#8) ∧
    (∃ t, perform ⟨0x46000000#32, {}, HostAnswers.sample⟩ start = .next t ∧ t.fault = none ∧
      fieldOp 0x46000000#32 = 0x46#8) :=
  ⟨⟨_, rfl, rfl, rfl⟩, ⟨_, rfl, rfl, rfl⟩, ⟨_, rfl, rfl, rfl⟩⟩

/-- A transaction that records a draw number. -/
theorem witness_DrawsReachOnlyTheirReads : (∃ t, exec .rdTac start = .next t) ∧
    ∃ t, exec (.setbankcount 5) start = .next t ∧ t.origins = [.created, .created, .created, .created, .added 0] :=
  ⟨⟨_, rfl⟩, _, rfl, rfl⟩

/-- The launch state, its last bank and that bank's last byte. -/
theorem witness_LaunchStateIsAsTabled : State.reset = State.launch .instT ⟨0, 0, 0, 0⟩ 0x0000#16 ∧
    3 < State.reset.bankCount ∧ 16383 < bankSize := by
  decide

theorem witness_EveryStepKeepsTheInvariant : (start.withFetchWord 32 0x42000001).Inv ∧
    ∃ t, step (start.withFetchWord 32 0x42000001) = .next t ∧ t.response = some (.handle ⟨1, 0, 0#16⟩) :=
  ⟨{ start_inv with }, _, rfl, rfl⟩

end Sys2Proof.Tests
end

/-! PROOF. The statements of 00_scope.md: every transaction is answered (R12), and the draw number reaches only the
responses and origins that hold a draw (R11). -/

namespace Sys2Proof.Machine

/-! ### Every effect answers (R12) -/

theorem Shape.answers {s t : State} {i : Instr} (h : Shape s i t) : ∃ r, t.response = some r := by
  cases h
  case acknowledge k _ _ _ =>
    rw [State.acknowledge_response]
    split <;> exact ⟨_, rfl⟩
  all_goals exact ⟨_, rfl⟩

theorem transact_answers {s : State} {body : State → State} (h : ∃ r, (body s).response = some r) :
    ∃ t r, transact s body = .next t ∧ t.response = some r := by
  cases hs : s.fault with
  | some code => exact ⟨_, _, transact_of_fault hs body, rfl⟩
  | none =>
    obtain ⟨r, hr⟩ := h
    exact ⟨_, r, transact_of_running hs body, hr⟩

/-- Settles O13: a decoded transaction answers by its shape, a rejected word by `Faulted(IllegalOperation)`. -/
theorem everyTransactionIsAnswered : Obligations.EveryTransactionIsAnswered := by
  intro tx s
  rcases perform_cases tx s with ⟨i, _, hp⟩ | ⟨_, _, hp⟩ <;> rw [hp]
  · rw [exec_eq_transact]
    exact transact_answers (effect_shape i (s.accept tx)).answers
  · exact transact_answers ⟨_, State.raise_response _ _⟩

/-! ### The draw number and the shared operations (R11) -/

/-- The state with draw number `d`. -/
def State.withDraws (s : State) (d : Nat) : State := { s with draws := d }

@[simp] theorem State.withDraws_handles (s : State) (d : Nat) : (s.withDraws d).handles = s.handles := rfl
@[simp] theorem State.withDraws_answers (s : State) (d : Nat) : (s.withDraws d).answers = s.answers := rfl
@[simp] theorem State.lowestRequesting_withDraws (s : State) (d : Nat) :
    (s.withDraws d).lowestRequesting = s.lowestRequesting := rfl
@[simp] theorem State.translate_withDraws (s : State) (a : Addr) (d : Nat) :
    (s.withDraws d).translate a = s.translate a := rfl

theorem State.withDraws_ite (c : Prop) [Decidable c] (a b : State) (d : Nat) :
    (if c then a else b).withDraws d = if c then a.withDraws d else b.withDraws d :=
  apply_ite (·.withDraws d) c a b

theorem State.acknowledge_withDraws (s : State) (k : Kind) (d : Nat) :
    (s.withDraws d).acknowledge k = (s.acknowledge k).withDraws d := by
  unfold State.acknowledge
  rw [State.withDraws_ite]
  rfl

theorem State.pressButton_withDraws (s : State) (g : Group) (l : Line) (d : Nat) :
    (s.withDraws d).pressButton g l = (s.pressButton g l).withDraws d := by
  cases g <;> simp only [State.pressButton, State.withDraws_ite] <;> rfl

theorem State.latchRtc_withDraws (s : State) (d : Nat) : (s.withDraws d).latchRtc = s.latchRtc.withDraws d := by
  simp only [State.latchRtc, State.withDraws_ite]
  rfl

theorem State.tickTimer_withDraws (s : State) (d : Nat) : (s.withDraws d).tickTimer = s.tickTimer.withDraws d := by
  simp only [State.tickTimer, State.clockCounter, State.withDraws_ite]
  rfl

theorem State.loadData_withDraws (s : State) (f : Bool) (name : Name) (bytes : List Byte) (d : Nat) :
    (s.withDraws d).loadData f name bytes = (s.loadData f name bytes).withDraws d := by
  simp only [State.loadData, State.withDraws_ite]
  rfl

theorem State.readWindow_withDraws (s : State) (a : Addr) (d : Nat) :
    (s.withDraws d).readWindow a = (s.readWindow a).withDraws d := by
  unfold State.readWindow
  rw [State.translate_withDraws]
  cases s.translate a <;> rfl

theorem withKind_withDraws (k : Kind) (s : State) (d : Nat) (body : State → State)
    (hb : body (s.withDraws d) = (body s).withDraws d) :
    withKind k (s.withDraws d) body = (withKind k s body).withDraws d := by
  unfold withKind
  rw [State.withDraws_ite, hb]
  rfl

/-! ### The draw number and every instruction (R11) -/

/-- A read whose byte holds a draw (R167, R204, R240, R282, R283). -/
def ReadsDraw (i : Instr) : Prop := i = .rdTac ∨ i = .rdJoyp ∨ i = .rdRtcLatch ∨ i = .rdBankHi ∨ i = .rdBankLo

/-- Another draw number gives the same effect under that number, but for the response of a read that holds a draw and the
origins that SETBANKCOUNT records. -/
theorem effect_withDraws (i : Instr) (s : State) (d : Nat) :
    effect i (s.withDraws d) = (effect i s).withDraws d ∨
    (ReadsDraw i ∧ ∃ r, effect i (s.withDraws d) = ((effect i s).withDraws d).respond r) ∨
    (∃ n origins, i = .setbankcount n ∧
      effect i (s.withDraws d) = { (effect i s).withDraws d with origins := origins }) := by
  cases i with
  | rdTac | rdJoyp | rdRtcLatch | rdBankHi | rdBankLo => exact .inr (.inl ⟨by simp [ReadsDraw], _, rfl⟩)
  | setbankcount n =>
    refine .inr (.inr ⟨n, (effect (.setbankcount n) (s.withDraws d)).origins, rfl, ?_⟩)
    by_cases hn : n < 1 ∨ 65536 < n
    · simp only [effect, hn, if_true]; rfl
    · cases hs : s.answers.alloc <;> simp only [effect, hn, State.withDraws_answers, hs, if_false] <;> rfl
  | req | cancel | setie | sethandler =>
    left
    simp only [effect]
    exact withKind_withDraws _ s d _ rfl
  | service =>
    left
    simp only [effect, State.withDraws_ite, State.lowestRequesting_withDraws]
    cases s.lowestRequesting with
    | none => rfl
    | some k => simp only [State.acknowledge_withDraws]; rfl
  | tick => exact .inl (congrArg (·.respond .ok) (s.tickTimer_withDraws d))
  | press g l => exact .inl (congrArg (·.respond .ok) (s.pressButton_withDraws g l d))
  | release g => left; cases g <;> rfl
  | latch | wrRtcLatch => exact .inl (congrArg (·.respond .ok) (s.latchRtc_withDraws d))
  | load f name bytes => exact .inl (s.loadData_withDraws f name bytes d)
  | loadfile f name path =>
    left
    simp only [effect, State.withDraws_answers]
    cases s.answers.file with
    | none => rfl
    | some bytes => exact s.loadData_withDraws f name bytes d
  | lookup name =>
    left
    simp only [effect, State.withDraws_handles]
    cases s.handles.find name <;> rfl
  | readbyte a =>
    left
    simp only [effect, State.withDraws_ite, State.readWindow_withDraws]
    rfl
  | hret | gotoHandle | rdRomx =>
    left
    simp only [effect, State.withDraws_ite]
    rfl
  | _ => exact .inl rfl

/-- Settles O56: a faulted state answers the same fault under every draw number; a running one by `effect_withDraws`. -/
theorem drawsReachOnlyTheirReads : Obligations.DrawsReachOnlyTheirReads := by
  intro i s t d h
  rcases (exec_eq_next_iff i s t).1 h with ⟨code, hs, rfl⟩ | ⟨hs, rfl⟩
  · refine ⟨(s.withDraws d).respond (.faulted code), (exec_eq_next_iff i (s.withDraws d) _).2 (.inl ⟨code, hs, rfl⟩), rfl,
      fun hr => absurd rfl hr, fun ho => absurd rfl ho⟩
  · refine ⟨effect i (s.withDraws d), exec_of_running (s := s.withDraws d) hs i, ?_⟩
    rcases effect_withDraws i s d with he | ⟨hi, r, he⟩ | ⟨n, origins, hi, he⟩ <;> rw [he]
    · exact ⟨rfl, fun hr => absurd rfl hr, fun ho => absurd rfl ho⟩
    · exact ⟨rfl, fun _ => hi, fun ho => absurd rfl ho⟩
    · exact ⟨rfl, fun hr => absurd rfl hr, fun _ => ⟨n, hi⟩⟩

end Sys2Proof.Machine

/-! PROOF. The statements of 10_state.md: a step performs the first pending transaction (R20, R67), every step keeps the
invariant (R46), the only writers of each field (R25-R33, R38, R40-R43), and that `oldDivider` cannot be observed (R30). -/

namespace Sys2Proof.Machine

/-! ### A step performs the first pending transaction (R20, R67) -/

theorem step_of_pending {s : State} {tx : Transaction} {rest : List Transaction} (h : s.pending = tx :: rest) :
    step s = perform tx { s with pending := rest } := by simp only [step, h]

theorem step_of_none_pending {s : State} (h : s.pending = []) : step s = .fault .noTransaction := by simp only [step, h]

theorem perform_of_decodes {s : State} {tx : Transaction} {i : Instr} (h : decode s.cfg tx.word tx.payload = .ok i) :
    perform tx s = exec i (s.accept tx) := by simp only [perform, h]

/-- The inversion of `step`: a next state is the outcome of the first pending transaction. -/
theorem step_next {s t : State} (h : step s = .next t) :
    ∃ tx rest, s.pending = tx :: rest ∧ perform tx { s with pending := rest } = .next t := by
  cases hp : s.pending with
  | nil =>
    rw [step_of_none_pending hp] at h
    cases h
  | cons tx rest => exact ⟨tx, rest, rfl, step_of_pending hp ▸ h⟩

/-- Settles O8: the dequeued state has the configuration the word is decoded under. -/
theorem stepRunsTheDecodedTransaction : Obligations.StepRunsTheDecodedTransaction :=
  ⟨fun _ _ _ _ hp hd => (step_of_pending hp).trans (perform_of_decodes hd), fun _ => step_of_none_pending⟩

/-! ### The launch state meets the invariant (R46, R370) -/

theorem fillOf_launch (c : Config) (w : WallTime) (x : BitVec 16) (b : Nat) : (State.launch c w x).fillOf b = 0 := by
  simp only [State.fillOf, State.launch, List.getD_eq_getElem?_getD, List.getElem?_replicate]
  split <;> rfl

/-- At launch no byte is loaded, so every bank's fill position is 0. -/
theorem launch_inv {c : Config} (hc : c.Valid) (w : WallTime) (x : BitVec 16) : (State.launch c w x).Inv where
  config := hc
  handlerTable := List.length_replicate
  phase := nofun
  bankRange := by
    obtain ⟨-, -, -, -, -, -, -, -, -, -, h⟩ := hc
    exact h
  fillTable := List.length_replicate
  originTable := List.length_replicate
  fillRange y hy := by simp [List.eq_of_mem_replicate hy]
  banksCanonical := .nil
  loadedBelowFill := nofun
  fillLoaded b o _ ho := by simp [fillOf_launch] at ho
  handlesCanonical := .nil
  handleWidths := nofun

/-- Settles O59: `State.reset` is the launch state of instantiation T. -/
theorem launchMeetsTheInvariant : Obligations.LaunchMeetsTheInvariant :=
  ⟨fun _ w x hc => launch_inv hc w x, launch_inv instT_valid ⟨0, 0, 0, 0⟩ 0x0000#16⟩

/-! ### Every step keeps the invariant (R46) -/

/-- Every next state of an instruction has one of its shapes: the answer of a faulted state is one too. -/
theorem shape_of_exec {i : Instr} {s t : State} (h : exec i s = .next t) : Shape s i t := by
  rcases exec_shape h with ⟨code, _, rfl⟩ | ⟨_, h⟩
  · exact .answer i _
  · exact h

theorem accept_inv {s : State} (h : s.Inv) (tx : Transaction) : (s.accept tx).Inv := { h with }

theorem raise_inv {s : State} (h : s.Inv) (code : FaultCode) : (s.raise code).Inv := { h with }

/-- The kind whose handler takes over exists, because a requesting kind does. -/
theorem acknowledge_inv {s : State} (h : s.Inv) {k : Kind} (hk : s.lowestRequesting = some k) :
    (s.acknowledge k).Inv := by
  have hlt : k.val < s.cfg.intKindCount := ((requesting_iff s k).1 ((lowestRequesting_eq_some_iff s k).1 hk).1).1
  unfold State.acknowledge
  split
  · exact { h with phase := fun j hj => Svc.inHandler.inj hj ▸ hlt }
  · exact { h with }

theorem setGroupField_inv {s : State} (h : s.Inv) (g : Group) (v : BitVec 4) : (s.setGroupField g v).Inv := by
  cases g <;> exact { h with }

/-- Only entry and end of a handler, SETHANDLER, SETBANKCOUNT and the loads write a field the invariant reads. -/
theorem Shape.inv {s t : State} {i : Instr} (h : Shape s i t) (hs : s.Inv) : t.Inv := by
  cases h with
  | acknowledge k _ _ hk => exact acknowledge_inv hs hk
  | endHandler r => exact { hs with phase := nofun }
  | register k p => exact { hs with handlerTable := List.length_set.trans hs.handlerTable }
  | resizeBanks n h1 h2 => exact respond_inv (resizeBanks_inv hs n h1 h2) .ok
  | load f name bytes hn _ hb hf => exact placeData_inv hs _ name bytes hn hb hf
  | loadfile f name path bytes hn _ hb hf => exact placeData_inv hs _ name bytes hn hb hf
  | press g l v f => exact respond_inv (setGroupField_inv (s := { s with IF := f }) { hs with } g v) .ok
  | release g l v => exact respond_inv (setGroupField_inv hs g v) .ok
  | _ => exact { hs with }

theorem perform_inv {tx : Transaction} {s t : State} (h : perform tx s = .next t) (hs : s.Inv) : t.Inv := by
  have ha := accept_inv hs tx
  rcases perform_next h with ⟨code, _, rfl⟩ | ⟨_, i, _, he⟩ | ⟨_, _, rfl⟩
  · exact respond_inv ha _
  · exact (shape_of_exec he).inv ha
  · exact raise_inv ha _

/-- Settles O60: taking a transaction from the queue keeps the invariant, and so does performing it. -/
theorem everyStepKeepsTheInvariant : Obligations.EveryStepKeepsTheInvariant := by
  intro s t hs h
  obtain ⟨tx, rest, _, hp⟩ := step_next h
  exact perform_inv hp { hs with }

/-! ### The only writers of each field

One case analysis of `Shape` for each field: the writers are named, and every other shape leaves the field as it was. -/

section Writers

variable {s t : State} {i : Instr}

theorem Shape.writer_of_IE (h : Shape s i t) (hne : t.IE ≠ s.IE) : (∃ k f, i = .setie k f) ∨ ∃ v, i = .wrIe v := by
  cases h with
  | setEnable k b => exact .inl ⟨k, b, rfl⟩
  | writeIe v => exact .inr ⟨v, rfl⟩
  | _ => simp at hne

theorem Shape.writer_of_IME (h : Shape s i t) (hne : t.IME ≠ s.IME) :
    (∃ f, i = .setime f) ∨ i = .service ∨ i = .reti := by
  cases h with
  | setMaster b => exact .inl ⟨b, rfl⟩
  | acknowledge => exact .inr (.inl rfl)
  | returns => exact .inr (.inr rfl)
  | _ => simp at hne

theorem Shape.writer_of_handlers (h : Shape s i t) (hne : t.handlers ≠ s.handlers) : ∃ k p, i = .sethandler k p := by
  cases h with
  | register k p => exact ⟨k, p, rfl⟩
  | _ => simp at hne

theorem Shape.writer_of_svc (h : Shape s i t) (hne : t.svc ≠ s.svc) : i = .service ∨ ∃ r, i = .hret r := by
  cases h with
  | acknowledge => exact .inl rfl
  | endHandler r => exact .inr ⟨r, rfl⟩
  | _ => simp at hne

theorem Shape.writer_of_divider (h : Shape s i t) (hne : t.divider ≠ s.divider) : i = .tick ∨ ∃ v, i = .wrDiv v := by
  cases h with
  | tick => exact .inl rfl
  | clearDivider v => exact .inr ⟨v, rfl⟩
  | _ => simp at hne

theorem Shape.writer_of_oldDivider (h : Shape s i t) (hne : t.oldDivider ≠ s.oldDivider) : i = .tick := by
  cases h with
  | tick => rfl
  | _ => simp at hne

theorem Shape.writer_of_counter (h : Shape s i t) (hne : t.counter ≠ s.counter) : i = .tick ∨ ∃ v, i = .wrTima v := by
  cases h with
  | tick => exact .inl rfl
  | writeTima v => exact .inr ⟨v, rfl⟩
  | _ => simp at hne

theorem Shape.writer_of_modulo (h : Shape s i t) (hne : t.modulo ≠ s.modulo) : ∃ v, i = .wrTma v := by
  cases h with
  | writeTma v => exact ⟨v, rfl⟩
  | _ => simp at hne

theorem Shape.writer_of_timerControl (h : Shape s i t) (hne : t.clockSpeed ≠ s.clockSpeed ∨ t.enabled ≠ s.enabled) :
    ∃ v, i = .wrTac v := by
  cases h with
  | writeTac v => exact ⟨v, rfl⟩
  | _ => simp at hne

theorem Shape.writer_of_bankCount (h : Shape s i t) (hne : t.bankCount ≠ s.bankCount ∨ t.origins ≠ s.origins) :
    ∃ n, i = .setbankcount n := by
  cases h with
  | resizeBanks n => exact ⟨n, rfl⟩
  | _ => simp at hne

theorem Shape.writer_of_banks (h : Shape s i t) (hne : t.banks ≠ s.banks ∨ t.fill ≠ s.fill) :
    (∃ n, i = .setbankcount n) ∨ (∃ f name bytes, i = .load f name bytes) ∨
      ∃ f name path, i = .loadfile f name path := by
  cases h with
  | resizeBanks n => exact .inl ⟨n, rfl⟩
  | load f name bytes => exact .inr (.inl ⟨f, name, bytes, rfl⟩)
  | loadfile f name path => exact .inr (.inr ⟨f, name, path, rfl⟩)
  | _ => simp at hne

theorem Shape.writer_of_handles (h : Shape s i t) (hne : t.handles ≠ s.handles) :
    (∃ f name bytes, i = .load f name bytes) ∨ ∃ f name path, i = .loadfile f name path := by
  cases h with
  | load f name bytes => exact .inl ⟨f, name, bytes, rfl⟩
  | loadfile f name path => exact .inr ⟨f, name, path, rfl⟩
  | _ => simp at hne

theorem Shape.writer_of_currentBank (h : Shape s i t) (hne : t.currentBank ≠ s.currentBank) :
    (∃ n, i = .setbank n) ∨ (∃ h, i = .gotoHandle h) ∨ ∃ v, i = .wrBankHi v ∨ i = .wrBankLo v := by
  cases h with
  | selectBank n => exact .inl ⟨n, rfl⟩
  | gotoBank h => exact .inr (.inl ⟨h, rfl⟩)
  | bankHi v => exact .inr (.inr ⟨v, .inl rfl⟩)
  | bankLo v => exact .inr (.inr ⟨v, .inr rfl⟩)
  | _ => simp at hne

theorem Shape.writer_of_rtcFields (h : Shape s i t) (hne : t.rtcFields ≠ s.rtcFields) :
    i = .latch ∨ ∃ v, i = .wrRtcLatch v := by
  cases h with
  | latch => exact .inl rfl
  | latchWrite v => exact .inr ⟨v, rfl⟩
  | _ => simp [State.rtcFields] at hne

/-- No instruction writes the configuration, the queue, the latched answers or the draw number. -/
theorem Shape.keeps_ownFields (h : Shape s i t) :
    t.cfg = s.cfg ∧ t.pending = s.pending ∧ t.answers = s.answers ∧ t.draws = s.draws := by
  cases h with
  | acknowledge | press | release => simp
  | _ => exact ⟨rfl, rfl, rfl, rfl⟩

end Writers

/-- Settles O25, by the writers of each field. -/
theorem writersOfInterruptControl : Obligations.WritersOfInterruptControl := by
  intro i s t h
  have hs := shape_of_exec h
  exact ⟨hs.writer_of_IE, hs.writer_of_IME, hs.writer_of_handlers, hs.writer_of_svc⟩

/-- Settles O31, by the writers of each register. -/
theorem writersOfTheTimer : Obligations.WritersOfTheTimer := by
  intro i s t h
  have hs := shape_of_exec h
  exact ⟨hs.writer_of_divider, hs.writer_of_oldDivider, hs.writer_of_counter, hs.writer_of_modulo,
    hs.writer_of_timerControl⟩

/-- Settles O54, by the writers of each field. -/
theorem writersOfStoreAndClock : Obligations.WritersOfStoreAndClock := by
  intro i s t h
  have hs := shape_of_exec h
  exact ⟨hs.writer_of_bankCount, hs.writer_of_banks, hs.writer_of_handles, hs.writer_of_currentBank,
    hs.writer_of_rtcFields, hs.keeps_ownFields⟩

/-! ### No run modifies or removes a handle (R43) -/

/-- What every transaction keeps, every run keeps. -/
theorem performAll_keeps {P : State → Prop} (hP : ∀ {tx s t}, perform tx s = .next t → P s → P t)
    {txs : List Transaction} {s t : State} (h : performAll txs s = .next t) (hs : P s) : P t := by
  induction txs generalizing s with
  | nil =>
    cases h
    exact hs
  | cons tx rest ih =>
    cases hp : perform tx s with
    | next u =>
      rw [performAll, hp] at h
      exact ih h (hP hp hs)
    | fault | refused => simp [performAll, hp] at h

theorem perform_keeps_handle {name : Name} {hd : Handle} {tx : Transaction} {s t : State} (h : perform tx s = .next t)
    (hf : s.handles.find name = some hd) : t.handles.find name = some hd := by
  rcases perform_next h with ⟨_, _, rfl⟩ | ⟨_, _, _, he⟩ | ⟨_, _, rfl⟩
  · exact hf
  · exact exec_handles he name hd hf
  · exact hf

/-- Settles O53, by induction on the run. -/
theorem handlesAreNeverChanged : Obligations.HandlesAreNeverChanged := by
  intro txs s t name h hrun hf
  exact performAll_keeps (P := (·.handles.find name = some h)) perform_keeps_handle hrun hf

/-! ### `oldDivider` cannot be observed (R30) -/

/-- The state with the value `x` of `oldDivider`. -/
def State.withOldDivider (s : State) (x : BitVec 16) : State := { s with oldDivider := x }

@[simp] theorem State.withOldDivider_handles (s : State) (x : BitVec 16) :
    (s.withOldDivider x).handles = s.handles := rfl
@[simp] theorem State.withOldDivider_answers (s : State) (x : BitVec 16) :
    (s.withOldDivider x).answers = s.answers := rfl
@[simp] theorem State.lowestRequesting_withOldDivider (s : State) (x : BitVec 16) :
    (s.withOldDivider x).lowestRequesting = s.lowestRequesting := rfl
@[simp] theorem State.translate_withOldDivider (s : State) (a : Addr) (x : BitVec 16) :
    (s.withOldDivider x).translate a = s.translate a := rfl

theorem State.withOldDivider_ite (c : Prop) [Decidable c] (a b : State) (x : BitVec 16) :
    (if c then a else b).withOldDivider x = if c then a.withOldDivider x else b.withOldDivider x :=
  apply_ite (·.withOldDivider x) c a b

/-- A tick replaces `oldDivider` by the divider before anything reads it (R160). -/
theorem State.tickTimer_withOldDivider (s : State) (x : BitVec 16) : (s.withOldDivider x).tickTimer = s.tickTimer := rfl

theorem effect_tick_withOldDivider (s : State) (x : BitVec 16) : effect .tick (s.withOldDivider x) = effect .tick s :=
  congrArg (·.respond .ok) (s.tickTimer_withOldDivider x)

theorem State.acknowledge_withOldDivider (s : State) (k : Kind) (x : BitVec 16) :
    (s.withOldDivider x).acknowledge k = (s.acknowledge k).withOldDivider x := by
  simp only [State.acknowledge, State.withOldDivider_ite]
  rfl

theorem State.readWindow_withOldDivider (s : State) (a : Addr) (x : BitVec 16) :
    (s.withOldDivider x).readWindow a = (s.readWindow a).withOldDivider x := by
  simp only [State.readWindow, State.translate_withOldDivider]
  cases s.translate a <;> rfl

theorem State.loadData_withOldDivider (s : State) (f : Bool) (name : Name) (bytes : List Byte) (x : BitVec 16) :
    (s.withOldDivider x).loadData f name bytes = (s.loadData f name bytes).withOldDivider x := by
  simp only [State.loadData, State.withOldDivider_ite]
  rfl

theorem State.pressButton_withOldDivider (s : State) (g : Group) (l : Line) (x : BitVec 16) :
    (s.withOldDivider x).pressButton g l = (s.pressButton g l).withOldDivider x := by
  cases g <;> simp only [State.pressButton, State.withOldDivider_ite] <;> rfl

theorem State.latchRtc_withOldDivider (s : State) (x : BitVec 16) :
    (s.withOldDivider x).latchRtc = s.latchRtc.withOldDivider x := by
  simp only [State.latchRtc, State.withOldDivider_ite]
  rfl

/-- Every other instruction carries `oldDivider` along and reads it nowhere. -/
theorem effect_withOldDivider {i : Instr} (hi : i ≠ .tick) (s : State) (x : BitVec 16) :
    effect i (s.withOldDivider x) = (effect i s).withOldDivider x := by
  cases i with
  | tick => exact absurd rfl hi
  | req | cancel | setie | sethandler | hret | gotoHandle | rdRomx | setbankcount =>
    simp only [effect, withKind, State.withOldDivider_ite]
    rfl
  | service =>
    simp only [effect, State.withOldDivider_ite, State.lowestRequesting_withOldDivider]
    cases s.lowestRequesting with
    | none => rfl
    | some k =>
      simp only [State.acknowledge_withOldDivider]
      rfl
  | press g l => exact congrArg (·.respond .ok) (s.pressButton_withOldDivider g l x)
  | release g => cases g <;> rfl
  | latch | wrRtcLatch => exact congrArg (·.respond .ok) (s.latchRtc_withOldDivider x)
  | load f name bytes => exact s.loadData_withOldDivider f name bytes x
  | loadfile f name path =>
    simp only [effect, State.withOldDivider_answers]
    cases s.answers.file with
    | none => rfl
    | some bytes => exact s.loadData_withOldDivider f name bytes x
  | lookup name =>
    simp only [effect, State.withOldDivider_handles]
    cases s.handles.find name <;> rfl
  | readbyte a =>
    simp only [effect, State.withOldDivider_ite, State.readWindow_withOldDivider]
    rfl
  | _ => rfl

/-- Settles O32: the fault answer and every effect but a tick's carry `oldDivider` along, and a tick replaces it. -/
theorem oldDividerIsUnobservable : Obligations.OldDividerIsUnobservable := by
  intro i s t x h
  rcases (exec_eq_next_iff i s t).1 h with ⟨code, hs, rfl⟩ | ⟨hs, rfl⟩
  · exact ⟨_, (exec_eq_next_iff i (s.withOldDivider x) _).2 (.inl ⟨code, hs, rfl⟩), rfl, fun _ hn => by simp [hs] at hn⟩
  · refine ⟨_, exec_of_running (s := s.withOldDivider x) hs i, ?_⟩
    by_cases hi : i = .tick
    · subst hi
      rw [effect_tick_withOldDivider]
      exact ⟨rfl, fun _ _ => rfl⟩
    · rw [effect_withOldDivider hi]
      exact ⟨rfl, fun ht => absurd ht hi⟩

end Sys2Proof.Machine

/-! PROOF. The statements of 20_memory.md: every address decodes to its target (R62), and no read changes the state
(R68). -/

namespace Sys2Proof

/-! ### The windows of the address decode (R62) -/

theorem decodeAddr_of_lowWindow (c : Config) {a : Addr} (h : a.toNat ≤ 0x3FFF) : decodeAddr c a = .rom0 :=
  lowWindow_addr a h ▸ decodeAddr_lowWindow c (a.setWidth 14)

theorem decodeAddr_of_highWindow (c : Config) {a : Addr} (h : 0x4000 ≤ a.toNat) (h' : a.toNat ≤ 0x7FFF) :
    decodeAddr c a = .romx :=
  highWindow_addr a (Nat.not_le.2 h) h' ▸ decodeAddr_highWindow c (a.setWidth 14)

/-- Settles O6: the two windows, then the registers, then the rest. -/
theorem addressDecodeFindsEveryTarget : Obligations.AddressDecodeFindsEveryTarget := by
  intro c hc
  obtain ⟨h1, h2, h3, h4, h5, h6, h7, h8, h9, h10, h11, h12, h13, h14, h15⟩ := decodeAddr_register hc
  exact ⟨fun _ => decodeAddr_of_lowWindow c, fun _ => decodeAddr_of_highWindow c, h1, h2, h3, h4, h5, h6, h7, h8, h9,
    h10, h11, h12, h13, h14, h15, fun _ => decodeAddr_unmapped⟩

/-! ### The instructions of the read words (R68, R96) -/

/-- A read: RD of any target, READBYTE or LOOKUP. -/
def Instr.IsRead : Instr → Prop
  | .rdRom0 _ | .rdRomx _ | .rdIf | .rdIe | .rdDiv | .rdTima | .rdTma | .rdTac | .rdJoyp | .rdRtcS | .rdRtcM | .rdRtcH
  | .rdRtcDl | .rdRtcDh | .rdRtcLatch | .rdBankHi | .rdBankLo | .rdUnmapped _ | .readbyte _ | .lookup _ => True
  | _ => False

theorem decodeRead_isRead (c : Config) (a : Addr) : (decodeRead c a).IsRead := by
  unfold decodeRead
  cases decodeAddr c a <;> trivial

theorem isRead_of_decode {c : Config} {w : Word} {p : Payload} {i : Instr} (h : decode c w p = .ok i)
    (hop : fieldOp w = 0x01#8 ∨ fieldOp w = 0x45#8 ∨ fieldOp w = 0x46#8) : i.IsRead := by
  cases decode_inv h with
  | rd => exact decodeRead_isRead c (fieldA w)
  | readbyte | lookup => trivial
  | _ ho => simp [ho] at hop

end Sys2Proof

namespace Sys2Proof.Machine

/-! ### No read changes the state (R68) -/

/-- Every shape but an answer and a fault belongs to an instruction that is no read. -/
theorem Shape.of_isRead {s t : State} {i : Instr} (h : Shape s i t) (hi : i.IsRead) :
    (∃ r, t = s.respond r) ∨ ∃ code, t = s.raise code := by
  cases h with
  | answer _ r => exact .inl ⟨r, rfl⟩
  | raise _ code => exact .inr ⟨code, rfl⟩
  | _ => exact hi.elim

/-- Settles O55: the word decodes to a read, which answers or faults, and every outcome that ends faulted is excluded. -/
theorem noReadChangesState : Obligations.NoReadChangesState := by
  intro s t tx h ht hop
  rcases perform_next h with ⟨code, hs, rfl⟩ | ⟨_, i, hd, he⟩ | ⟨_, _, rfl⟩
  · exact absurd (hs.symm.trans ht) nofun
  · rcases (shape_of_exec he).of_isRead (isRead_of_decode hd hop) with ⟨r, rfl⟩ | ⟨code, rfl⟩
    · rfl
    · simp at ht
  · simp at ht

end Sys2Proof.Machine

/-! PROOF. The statements of 30_encoding.md: the words of the transactions (R91), the round trip of the encoder and the
decoder (R96), and the reserved words (R97, R99). -/

namespace Sys2Proof

/-! ### Encoded words decode to their transactions (R93, R96) -/

/-- The converse of `decode_inv`: `Decodes` says exactly what the decoder answers. -/
theorem decode_eq_ok_iff {c : Config} {w : Word} {p : Payload} {i : Instr} :
    decode c w p = .ok i ↔ Decodes c w p i := by
  refine ⟨decode_inv, fun h => ?_⟩
  cases h <;> simp [decode, checked, *]

theorem unmapped_iff (c : Config) (a : Addr) : c.unmapped a = true ↔ 0x8000 ≤ a.toNat ∧ a ∉ c.addresses := by
  simp [Config.unmapped]

/-- Settles O2: the words of RD and WR go through the address decode, every other word through its OP value and the
operand fields of its format. -/
theorem decodeOfEncodeIsTheInstruction : Obligations.DecodeOfEncodeIsTheInstruction := by
  intro c i hc hi
  have hreg := decodeAddr_register hc
  cases i with
  | rdRom0 a => simp [encode, decode_rdWord, decodeRead, decodeAddr_lowWindow, lowWindow_setWidth]
  | wrRom0 a v => simp [encode, decode_wrWord, decodeWrite, decodeAddr_lowWindow, lowWindow_setWidth]
  | rdRomx a => simp [encode, decode_rdWord, decodeRead, decodeAddr_highWindow, highWindow_setWidth]
  | wrRomx a v => simp [encode, decode_wrWord, decodeWrite, decodeAddr_highWindow, highWindow_setWidth]
  | rdUnmapped a =>
    obtain ⟨h, hn⟩ := (unmapped_iff c a).1 hi
    simp [encode, decode_rdWord, decodeRead, decodeAddr_unmapped h hn]
  | wrUnmapped a v =>
    obtain ⟨h, hn⟩ := (unmapped_iff c a).1 hi
    simp [encode, decode_wrWord, decodeWrite, decodeAddr_unmapped h hn]
  | rdIf | rdIe | rdDiv | rdTima | rdTma | rdTac | rdJoyp | rdRtcS | rdRtcM | rdRtcH | rdRtcDl | rdRtcDh | rdRtcLatch
  | rdBankHi | rdBankLo => simp [encode, decode_rdWord, decodeRead, hreg]
  | wrIf | wrIe | wrDiv | wrTima | wrTma | wrTac | wrJoyp | wrRtcS | wrRtcM | wrRtcH | wrRtcDl | wrRtcDh | wrRtcLatch
  | wrBankHi | wrBankLo => simp [encode, decode_wrWord, decodeWrite, hreg]
  | setbankcount n =>
    obtain ⟨h1, hn⟩ : 1 ≤ n ∧ n ≤ 65536 := by simpa [Instr.wellFormed] using hi
    have hA : (n - 1) % 65536 = n - 1 := Nat.mod_eq_of_lt (by omega)
    simp [encode, decode, checked, fieldOp_mkWord, fieldA_mkWord, fieldD_mkWord, hA, Nat.sub_add_cancel h1]
  | tick | service | reti | latch | setbank | gotoHandle | readbyte | lookup =>
    simp [encode, payloadOf, decode, checked, fieldOp_mkWord, fieldA_mkWord, fieldD_mkWord]
  | req k | cancel k => simp [encode, decode, checked, fieldOp_mkWord, fieldA_mkWord, fieldD_mkWord, dK_fields]
  | setie k f | sethandler k f =>
    simp [encode, decode, checked, fieldOp_mkWord, fieldA_mkWord, fieldD_mkWord, dKF_fields]
  | setime f | hret f | load f | loadfile f =>
    simp [encode, payloadOf, decode, checked, fieldOp_mkWord, fieldA_mkWord, fieldD_mkWord, dF_fields]
  | press g l | release g l =>
    simp [encode, decode, checked, fieldOp_mkWord, fieldA_mkWord, fieldD_mkWord, dJ_fields]

/-! ### Decoded words are the encodings of their transactions (R96, R99) -/

theorem mkWord_eq_of_fields {w : Word} {op : BitVec 8} {a : Addr} {d : Byte} (ho : fieldOp w = op) (ha : fieldA w = a)
    (hd : fieldD w = d) : mkWord op a d = w := by rw [← ho, ← ha, ← hd, mkWord_fields]

/-- What a word decodes to is well-formed and encodes to the word: its operands are the fields of its format. -/
theorem Decodes.encode_eq {c : Config} {w : Word} {p : Payload} {i : Instr} (h : Decodes c w p i)
    (hp : p.wellFormed = true) : i.wellFormed c = true ∧ encode c i = w := by
  cases h with
  | rd ho hd =>
    obtain ⟨hwf, he⟩ := decodeRead_wellFormed c (fieldA w)
    exact ⟨hwf, he.trans (mkWord_eq_of_fields ho rfl hd)⟩
  | wr ho =>
    obtain ⟨hwf, he⟩ := decodeWrite_wellFormed c (fieldA w) (fieldD w)
    exact ⟨hwf, he.trans (mkWord_eq_of_fields ho rfl rfl)⟩
  | setbankcount ho hd =>
    have := (fieldA w).isLt
    exact ⟨by simp [Instr.wellFormed]; omega, mkWord_eq_of_fields ho (by simp) hd⟩
  | setbank ho hd | readbyte ho hd => exact ⟨rfl, mkWord_eq_of_fields ho rfl hd⟩
  | gotoHandle ho ha hd => exact ⟨hp, mkWord_eq_of_fields ho ha hd⟩
  | tick ho ha hd | service ho ha hd | reti ho ha hd | latch ho ha hd | lookup ho ha hd =>
    exact ⟨rfl, mkWord_eq_of_fields ho ha hd⟩
  | req ho ha hd | cancel ho ha hd => exact ⟨rfl, mkWord_eq_of_fields ho ha (dK_of_fields _ hd).symm⟩
  | setie ho ha hd | sethandler ho ha hd => exact ⟨rfl, mkWord_eq_of_fields ho ha (dKF_of_fields _ hd).symm⟩
  | setime ho ha hd | hret ho ha hd | load ho ha hd | loadfile ho ha hd =>
    exact ⟨rfl, mkWord_eq_of_fields ho ha (dF_of_fields _ hd).symm⟩
  | press ho ha hd | release ho ha hd => exact ⟨rfl, mkWord_eq_of_fields ho ha (dJ_of_fields _ hd).symm⟩

/-- Settles O3, by the inversion of the decoder. -/
theorem encodeOfDecodeIsTheWord : Obligations.EncodeOfDecodeIsTheWord :=
  fun _ _ _ _ hp h => (decode_inv h).encode_eq hp

/-! ### The words, field by field (R90, R91) -/

theorem mkWord_toNat_eq_wordOf (op : BitVec 8) (a : Addr) (d : Byte) :
    (mkWord op a d).toNat = Machine.wordOf op.toNat a.toNat d.toNat :=
  mkWord_toNat op a d

/-- Settles O1: the number of a word is that of its fields, and each field has the number of its operand. -/
theorem encodedWordsHoldTheirFields : Obligations.EncodedWordsHoldTheirFields := by
  rintro c k f g l n b a o v name path bytes h word _ _ - hn hword rfl rfl
  have hcount : (BitVec.ofNat 16 (n - 1)).toNat = n - 1 := by rw [BitVec.toNat_ofNat]; omega
  simp [hword, encode, rdWord, wrWord, mkWord_toNat_eq_wordOf, hcount, dK_toNat, dKF_toNat, dF_toNat, dJ_toNat,
    lowWindow_toNat, highWindow_toNat]

/-! ### Sample words (R94, R95) -/

/-- Settles O7: the decoder evaluates each word. -/
theorem sampleWordsDecode : Obligations.SampleWordsDecode := ⟨rfl, rfl, rfl, rfl, rfl, rfl, rfl⟩

/-! ### The rows of the opcode map, by format (R91, R94)

A word agrees with a row when it has the row's OP value and zeros in the fields that the row's format reserves. -/

section
variable (w : Word) (op : BitVec 8)

theorem agrees_writeRow : w &&& 0xFF000000#32 = mkWord op 0#16 0#8 ↔ fieldOp w = op :=
  (row_address w op 0x00#8).trans (and_iff_left BitVec.and_zero)

theorem agrees_addressRow : w &&& 0xFF0000FF#32 = mkWord op 0#16 0#8 ↔ fieldOp w = op ∧ fieldD w = 0#8 := by
  rw [← mask_all]
  exact row_address w op 0xFF#8

theorem agrees_fixedRow :
    w &&& 0xFFFFFFFF#32 = mkWord op 0#16 0#8 ↔ fieldOp w = op ∧ fieldA w = 0#16 ∧ fieldD w = 0#8 := by
  rw [← mask_all]
  exact row_noAddress w op 0xFF#8

theorem agrees_kindRow :
    w &&& 0xFFFFFFF8#32 = mkWord op 0#16 0#8 ↔
      fieldOp w = op ∧ fieldA w = 0#16 ∧ (fieldD w).extractLsb' 3 5 = 0#5 := by
  rw [← mask_kind]
  exact row_noAddress w op 0xF8#8

theorem agrees_kindFlagRow :
    w &&& 0xFFFFFF78#32 = mkWord op 0#16 0#8 ↔
      fieldOp w = op ∧ fieldA w = 0#16 ∧ (fieldD w).extractLsb' 3 4 = 0#4 := by
  rw [← mask_kindFlag]
  exact row_noAddress w op 0x78#8

theorem agrees_flagRow :
    w &&& 0xFFFFFFFE#32 = mkWord op 0#16 0#8 ↔
      fieldOp w = op ∧ fieldA w = 0#16 ∧ (fieldD w).extractLsb' 1 7 = 0#7 := by
  rw [← mask_flag]
  exact row_noAddress w op 0xFE#8

end

/-! ### The words the decoder rejects (R97, R99) -/

/-- A decoded word agrees with the row of its OP value. -/
theorem Decodes.agrees_row {c : Config} {w : Word} {p : Payload} {i : Instr} (h : Decodes c w p i) :
    ∃ r ∈ opcodeMap, w &&& r.1 = r.2 := by
  cases h with
  | wr ho => exact ⟨(_, mkWord 0x02#8 0#16 0#8), by decide, (agrees_writeRow w _).2 ho⟩
  | rd ho hd | setbankcount ho hd | setbank ho hd | readbyte ho hd =>
    exact ⟨(_, mkWord (fieldOp w) 0#16 0#8), by rw [ho]; decide, (agrees_addressRow w _).2 ⟨rfl, hd⟩⟩
  | tick ho ha hd | service ho ha hd | reti ho ha hd | latch ho ha hd | gotoHandle ho ha hd | lookup ho ha hd =>
    exact ⟨(_, mkWord (fieldOp w) 0#16 0#8), by rw [ho]; decide, (agrees_fixedRow w _).2 ⟨rfl, ha, hd⟩⟩
  | req ho ha hd | cancel ho ha hd | press ho ha hd | release ho ha hd =>
    exact ⟨(_, mkWord (fieldOp w) 0#16 0#8), by rw [ho]; decide, (agrees_kindRow w _).2 ⟨rfl, ha, hd⟩⟩
  | setie ho ha hd | sethandler ho ha hd =>
    exact ⟨(_, mkWord (fieldOp w) 0#16 0#8), by rw [ho]; decide, (agrees_kindFlagRow w _).2 ⟨rfl, ha, hd⟩⟩
  | setime ho ha hd | hret ho ha hd | load ho ha hd | loadfile ho ha hd =>
    exact ⟨(_, mkWord (fieldOp w) 0#16 0#8), by rw [ho]; decide, (agrees_flagRow w _).2 ⟨rfl, ha, hd⟩⟩

/-- A word that agrees with a row decodes: each row is the row of one constructor of `Decodes`. -/
theorem exists_decodes_of_agrees_row (c : Config) (p : Payload) {w : Word} {r : Word × Word} (hr : r ∈ opcodeMap)
    (h : w &&& r.1 = r.2) : ∃ i, Decodes c w p i := by
  simp only [opcodeMap, List.mem_cons, List.not_mem_nil, or_false] at hr
  rcases hr with rfl | rfl | rfl | rfl | rfl | rfl | rfl | rfl | rfl | rfl | rfl | rfl | rfl | rfl | rfl | rfl | rfl |
    rfl | rfl | rfl | rfl
  · obtain ⟨ho, hd⟩ := (agrees_addressRow w 0x01#8).1 h; exact ⟨_, .rd ho hd⟩
  · exact ⟨_, .wr ((agrees_writeRow w 0x02#8).1 h)⟩
  · obtain ⟨ho, ha, hd⟩ := (agrees_fixedRow w 0x03#8).1 h; exact ⟨_, .tick ho ha hd⟩
  · obtain ⟨ho, ha, hd⟩ := (agrees_kindRow w 0x10#8).1 h; exact ⟨_, .req ho ha hd⟩
  · obtain ⟨ho, ha, hd⟩ := (agrees_kindRow w 0x11#8).1 h; exact ⟨_, .cancel ho ha hd⟩
  · obtain ⟨ho, ha, hd⟩ := (agrees_kindFlagRow w 0x12#8).1 h; exact ⟨_, .setie ho ha hd⟩
  · obtain ⟨ho, ha, hd⟩ := (agrees_flagRow w 0x13#8).1 h; exact ⟨_, .setime ho ha hd⟩
  · obtain ⟨ho, ha, hd⟩ := (agrees_fixedRow w 0x14#8).1 h; exact ⟨_, .service ho ha hd⟩
  · obtain ⟨ho, ha, hd⟩ := (agrees_fixedRow w 0x15#8).1 h; exact ⟨_, .reti ho ha hd⟩
  · obtain ⟨ho, ha, hd⟩ := (agrees_kindFlagRow w 0x16#8).1 h; exact ⟨_, .sethandler ho ha hd⟩
  · obtain ⟨ho, ha, hd⟩ := (agrees_flagRow w 0x17#8).1 h; exact ⟨_, .hret ho ha hd⟩
  · obtain ⟨ho, ha, hd⟩ := (agrees_kindRow w 0x20#8).1 h; exact ⟨_, .press ho ha hd⟩
  · obtain ⟨ho, ha, hd⟩ := (agrees_kindRow w 0x21#8).1 h; exact ⟨_, .release ho ha hd⟩
  · obtain ⟨ho, ha, hd⟩ := (agrees_fixedRow w 0x30#8).1 h; exact ⟨_, .latch ho ha hd⟩
  · obtain ⟨ho, hd⟩ := (agrees_addressRow w 0x40#8).1 h; exact ⟨_, .setbankcount ho hd⟩
  · obtain ⟨ho, hd⟩ := (agrees_addressRow w 0x41#8).1 h; exact ⟨_, .setbank ho hd⟩
  · obtain ⟨ho, ha, hd⟩ := (agrees_flagRow w 0x42#8).1 h; exact ⟨_, .load ho ha hd⟩
  · obtain ⟨ho, ha, hd⟩ := (agrees_flagRow w 0x43#8).1 h; exact ⟨_, .loadfile ho ha hd⟩
  · obtain ⟨ho, ha, hd⟩ := (agrees_fixedRow w 0x44#8).1 h; exact ⟨_, .gotoHandle ho ha hd⟩
  · obtain ⟨ho, hd⟩ := (agrees_addressRow w 0x45#8).1 h; exact ⟨_, .readbyte ho hd⟩
  · obtain ⟨ho, ha, hd⟩ := (agrees_fixedRow w 0x46#8).1 h; exact ⟨_, .lookup ho ha hd⟩

/-- The decoder rejects exactly the words that agree with no row. -/
theorem exists_error_iff (c : Config) (w : Word) (p : Payload) :
    (∃ e, decode c w p = .error e) ↔ ∀ r ∈ opcodeMap, w &&& r.1 ≠ r.2 := by
  constructor
  · rintro ⟨e, he⟩ r hr h
    obtain ⟨i, hi⟩ := exists_decodes_of_agrees_row c p hr h
    exact absurd (he.symm.trans (decode_eq_ok_iff.2 hi)) nofun
  · intro h
    cases hd : decode c w p with
    | error e => exact ⟨e, rfl⟩
    | ok i =>
      obtain ⟨r, hr, ha⟩ := (decode_inv hd).agrees_row
      exact absurd ha (h r hr)

theorem fieldOp_and (w m : Word) : fieldOp (w &&& m) = fieldOp w &&& fieldOp m := BitVec.extractLsb'_and ..

/-- Every row fixes the whole of OP. -/
theorem fieldOp_mask : ∀ r ∈ opcodeMap, fieldOp r.1 = 0xFF#8 := by simp [opcodeMap, fieldOp]

/-- No two rows have the same OP value. -/
theorem nodup_opcodeMap_op : (opcodeMap.map fun r => fieldOp r.2).Nodup := by decide

theorem fieldOp_of_agrees_row {w : Word} {r : Word × Word} (hr : r ∈ opcodeMap) (h : w &&& r.1 = r.2) :
    fieldOp w = fieldOp r.2 := by
  have e : fieldOp w &&& 0xFF#8 = fieldOp w := BitVec.and_allOnes
  rw [← h, fieldOp_and, fieldOp_mask r hr, e]

/-- Settles O4: two rows that a word agrees with have the word's OP value, so they are one row. -/
theorem rejectedWordsAreTheReservedOnes : Obligations.RejectedWordsAreTheReservedOnes :=
  fun c w p => ⟨exists_error_iff c w p, fun _ hr _ hr' h h' => List.inj_on_of_nodup_map nodup_opcodeMap_op hr hr'
    ((fieldOp_of_agrees_row hr h).symm.trans (fieldOp_of_agrees_row hr' h'))⟩

end Sys2Proof

namespace Sys2Proof.Machine

/-! ### A reserved word faults (R97) -/

theorem perform_of_rejects {s : State} {tx : Transaction} {e : Reject}
    (h : decode s.cfg tx.word tx.payload = .error e) :
    perform tx s = transact (s.accept tx) (fun t => t.raise .illegalOperation) := by simp only [perform, h]

/-- Settles O5: the decoder rejects the word, and the accepted transaction raises the fault. -/
theorem reservedWordFaultsOnly : Obligations.ReservedWordFaultsOnly := by
  intro s tx hs hw
  obtain ⟨e, he⟩ := (exists_error_iff s.cfg tx.word tx.payload).2 hw
  exact (perform_of_rejects he).trans (transact_of_running (s := s.accept tx) hs _)

end Sys2Proof.Machine

/-! PROOF. The statements of 40_interrupt_controller.md: the four operations on a kind (R121-R123, R125), IME (R124, R128),
SERVICE (R126), HRET (R127), and the registers that are read and written verbatim (R130-R133, R163-R166). -/

namespace Sys2Proof.Machine

/-! ### Operations on a kind (R98, R121-R123, R125) -/

/-- An operation on a kind takes its body's effect for a kind below N, and faults `InvalidKind` for one at or above N. -/
theorem exec_of_withKind {i : Instr} {s : State} {k : Kind} {body : State → State} (hs : s.fault = none)
    (hi : effect i s = withKind k s body) :
    (k.val < s.cfg.intKindCount → exec i s = .next (body s)) ∧
    (s.cfg.intKindCount ≤ k.val → exec i s = .next (s.raise .invalidKind)) := by
  rw [exec_of_running hs, hi]
  exact ⟨fun hk => congrArg _ (if_neg (Nat.not_le.2 hk)), fun hk => congrArg _ (if_pos hk)⟩

theorem getLsbD_setBit_true (v : Byte) (k : Kind) (j : Nat) :
    (setBit v k.val true).getLsbD j = (decide (j = k.val) || v.getLsbD j) := by
  rw [getLsbD_setBit _ _ _ _ k.isLt]
  by_cases h : j = k.val <;> simp [h]

theorem getLsbD_setBit_false (v : Byte) (k : Kind) (j : Nat) :
    (setBit v k.val false).getLsbD j = (decide (j ≠ k.val) && v.getLsbD j) := by
  rw [getLsbD_setBit _ _ _ _ k.isLt]
  by_cases h : j = k.val <;> simp [h]

/-- Settles O14, by the bits of a flag register after one is set. -/
theorem reqSetsOnlyItsFlag : Obligations.ReqSetsOnlyItsFlag := by
  intro k s hs
  obtain ⟨hlt, hge⟩ := exec_of_withKind (i := .req k) (body := fun s => (s.requestInterrupt k).respond .ok) hs rfl
  exact ⟨fun hk => ⟨_, hlt hk, fun j _ => getLsbD_setBit_true s.IF k j, rfl⟩, hge⟩

/-- Settles O15, by the bits of a flag register after one is cleared. -/
theorem cancelClearsOnlyItsFlag : Obligations.CancelClearsOnlyItsFlag := by
  intro k s hs
  obtain ⟨hlt, hge⟩ := exec_of_withKind (i := .cancel k) (body := fun s => (s.cancelInterrupt k).respond .ok) hs rfl
  exact ⟨fun hk => ⟨_, hlt hk, fun j _ => getLsbD_setBit_false s.IF k j, rfl⟩, hge⟩

/-- Settles O16, by the bits of a flag register after one is written. -/
theorem setieWritesOnlyItsBit : Obligations.SetieWritesOnlyItsBit := by
  intro k f s hs
  obtain ⟨hlt, hge⟩ := exec_of_withKind (i := .setie k f)
    (body := fun s => { s with IE := setBit s.IE k.val f, response := some .ok }) hs rfl
  exact ⟨fun hk => ⟨_, hlt hk, fun j _ => getLsbD_setBit s.IE k.val j f k.isLt, rfl⟩, hge⟩

/-- A write of an entry that the handler table holds is seen by that kind alone. -/
theorem hasHandler_of_set {s t : State} {k : Kind} {p : Bool} (ht : t.handlers = s.handlers.set k.val p)
    (hk : k.val < s.handlers.length) (j : Kind) : t.hasHandler j = if j = k then p else s.hasHandler j := by
  by_cases h : j = k
  · simp [State.hasHandler, ht, h, hk]
  · have hne : k.val ≠ j.val := fun e => h (Fin.ext e.symm)
    simp [State.hasHandler, ht, h, List.getElem?_set_ne hne]

/-- Settles O18: the table has an entry for every kind below N, so the write falls inside it. -/
theorem sethandlerWritesOnlyItsEntry : Obligations.SethandlerWritesOnlyItsEntry := by
  intro k p s hs hlen
  obtain ⟨hlt, hge⟩ := exec_of_withKind (i := .sethandler k p)
    (body := fun s => { s with handlers := s.handlers.set k.val p, response := some .ok }) hs rfl
  exact ⟨fun hk => ⟨_, hlt hk, List.length_set, hasHandler_of_set rfl (hlen ▸ hk), rfl⟩, hge⟩

/-! ### IME and the end of a handler (R124, R127, R128) -/

/-- Settles O17: the effect of RETI is that of SETIME 1. -/
theorem setimeAndRetiWriteOnlyIme : Obligations.SetimeAndRetiWriteOnlyIme :=
  fun _ hs => ⟨fun _ => exec_of_running hs _, exec_of_running hs _, (exec_of_running hs _).trans (exec_of_running hs _).symm⟩

/-- Settles O20, by the service phase. -/
theorem hretEndsTheHandler : Obligations.HretEndsTheHandler := by
  intro r s hs
  rw [exec_of_running hs]
  refine ⟨fun k hk => congrArg _ (if_neg ?_), fun h => congrArg _ (if_pos h)⟩
  rw [hk]
  nofun

/-! ### SERVICE (R126) -/

theorem requesting_eq_false_iff (s : State) (k : Kind) : s.requesting k = false ↔
    (k.val < s.cfg.intKindCount → s.IF.getLsbD k.val = true → s.IE.getLsbD k.val = false) := by
  simp [← Bool.not_eq_true, requesting_iff]

theorem exec_service_reentrant {s : State} {k : Kind} (hs : s.fault = none) (hk : s.svc = .inHandler k) :
    exec .service s = .next (s.raise .reentrantService) := by
  rw [exec_of_running hs]
  simp [effect, hk]

theorem exec_service_none {s : State} (hs : s.fault = none) (hi : s.svc = .idle)
    (h : s.IME = false ∨ s.lowestRequesting = none) : exec .service s = .next (s.respond (.service .NONE)) := by
  rw [exec_of_running hs]
  rcases h with h | h <;> simp [effect, hi, h]

theorem acknowledge_of_handler {s : State} {k : Kind} (h : s.hasHandler k = true) :
    s.acknowledge k =
      { s with IF := (s.acknowledge k).IF, IME := false, svc := .inHandler k, response := some .pending } := by
  rw [State.acknowledge_IF]
  exact if_pos h

theorem acknowledge_of_no_handler {s : State} {k : Kind} (h : s.hasHandler k = false) :
    s.acknowledge k = { s with IF := (s.acknowledge k).IF, IME := false, response := some (.service .NONE) } := by
  rw [State.acknowledge_IF]
  exact if_neg (Bool.eq_false_iff.1 h)

/-- Settles O19: with no kind requesting there is no lowest one, and a requesting kind with none below it is the lowest. -/
theorem serviceTakesTheLowestEligibleKind : Obligations.ServiceTakesTheLowestEligibleKind := by
  intro s hs
  refine ⟨fun k => exec_service_reentrant hs, fun hi hm => exec_service_none hs hi (.inl hm), fun hi hnone => ?_,
    fun k hi hm hk hIF hIE hlow => ?_⟩
  · have hl : s.lowestRequesting = none :=
      (lowestRequesting_eq_none_iff s).2 fun k => (requesting_eq_false_iff s k).2 (hnone k)
    exact exec_service_none hs hi (.inr hl)
  · have hl : s.lowestRequesting = some k :=
      lowestRequesting_of ((requesting_iff s k).2 ⟨hk, hIF, hIE⟩)
        fun j hj => (requesting_eq_false_iff s j).2 fun _ => hlow j hj
    exact ⟨s.acknowledge k, exec_service_acknowledge hs hi hm hl, fun j _ => acknowledge_IF s k j,
      acknowledge_of_handler, acknowledge_of_no_handler⟩

/-! ### Registers read and written verbatim (R130-R133, R163-R166) -/

/-- Settles O21: each effect answers or replaces the whole register. -/
theorem ifIeTimaTmaAreVerbatim : Obligations.IfIeTimaTmaAreVerbatim := by
  intro s v hs
  have run : ∀ i, exec i s = .next (effect i s) := exec_of_running hs
  exact ⟨run .rdIf, run (.wrIf v), run .rdIe, run (.wrIe v), run .rdTima, run (.wrTima v), run .rdTma, run (.wrTma v)⟩

end Sys2Proof.Machine

/-! PROOF. The statements of 41_timer.md: one tick (R160, R169), any run of ticks with the Timer enabled or disabled, and
the registers DIV (R161, R162) and TAC (R167, R168). -/

namespace Sys2Proof.Machine

/-! ### One tick (R160, R169) -/

/-- The tick from `d` clocks a counter driven by bit `b`: bits `b..0` of `d` are all 1 (R169). -/
abbrev EndsPeriod (b : Nat) (d : BitVec 16) : Prop := d.toNat % 2 ^ (b + 1) = 2 ^ (b + 1) - 1

theorem fallingEdge_iff_endsPeriod {speed : BitVec 2} {b : Nat} (hb : SpeedSelects speed b) (d : BitVec 16) :
    fallingEdge d (d + 1#16) (timerBit speed) = true ↔ EndsPeriod b d := by
  rw [timerBit_of_speedSelects hb]
  exact fallingEdge_succ_iff d b (bit_le_of_speedSelects hb)

theorem byte_ne_255_iff (c : Byte) : c ≠ 0xFF#8 ↔ c.toNat < 255 := by
  have := c.isLt
  rw [ne_eq, ← BitVec.toNat_inj, BitVec.toNat_ofNat]
  omega

/-- The answer to a TICK that leaves counter `c` and interrupt flags `f`. -/
def State.ticked (s : State) (c f : Byte) : State :=
  { s with oldDivider := s.divider, divider := s.divider + 1#16, counter := c, IF := f, response := some .ok }

/-- What a TICK does when the speed selects bit `b`: advance the divider alone, count, or reload and request. -/
theorem effect_tick_cases {s : State} {b : Nat} (hb : SpeedSelects s.clockSpeed b) :
    (¬ (s.enabled = true ∧ EndsPeriod b s.divider) ∧ effect .tick s = s.ticked s.counter s.IF) ∨
    (s.enabled = true ∧ EndsPeriod b s.divider ∧ s.counter.toNat < 255 ∧
      effect .tick s = s.ticked (s.counter + 1#8) s.IF) ∨
    (s.enabled = true ∧ EndsPeriod b s.divider ∧ s.counter = 0xFF#8 ∧
      effect .tick s = s.ticked s.modulo (setBit s.IF s.cfg.kindTimer.val true)) := by
  rcases tickTimer_cases s with ⟨he, hf, hc, h⟩ | ⟨he, hf, hc, h⟩ | ⟨hn, h⟩
  · exact .inr (.inr ⟨he, (fallingEdge_iff_endsPeriod hb _).1 hf, hc, congrArg (·.respond .ok) h⟩)
  · exact .inr (.inl ⟨he, (fallingEdge_iff_endsPeriod hb _).1 hf, (byte_ne_255_iff _).1 hc, congrArg (·.respond .ok) h⟩)
  · rw [fallingEdge_iff_endsPeriod hb] at hn
    exact .inl ⟨hn, congrArg (·.respond .ok) h⟩

theorem toNat_succ_of_lt_255 {c : Byte} (h : c.toNat < 255) : (c + 1#8).toNat = c.toNat + 1 := by
  rw [BitVec.toNat_add, BitVec.toNat_ofNat]
  omega

/-- Settles O26, by the cases of a tick. -/
theorem tickAdvancesDividerAndClocksOnFallingEdge : Obligations.TickAdvancesDividerAndClocksOnFallingEdge := by
  intro s b hs hb
  refine ⟨effect .tick s, exec_of_running hs _, ?_⟩
  have hdiv : (s.divider + 1#16).toNat = (s.divider.toNat + 1) % 2 ^ 16 := BitVec.toNat_add ..
  rcases effect_tick_cases hb with ⟨hn, h⟩ | ⟨he, hp, hc, h⟩ | ⟨he, hp, hc, h⟩ <;> rw [h]
  · exact ⟨rfl, hdiv, fun _ => ⟨rfl, rfl⟩, fun he hp => absurd ⟨he, hp⟩ hn, fun he hp => absurd ⟨he, hp⟩ hn, rfl⟩
  · exact ⟨rfl, hdiv, fun hn => absurd ⟨he, hp⟩ hn, fun _ _ _ => ⟨toNat_succ_of_lt_255 hc, rfl⟩,
      fun _ _ hc' => absurd hc' hc.ne, rfl⟩
  · exact ⟨rfl, hdiv, fun hn => absurd ⟨he, hp⟩ hn, fun _ _ hc' => absurd hc ((byte_ne_255_iff _).2 hc'),
      fun _ _ _ => ⟨rfl, fun j _ => getLsbD_setBit_true s.IF _ j⟩, rfl⟩

/-! ### Runs of ticks -/

theorem effect_tick_fault (s : State) : (effect .tick s).fault = s.fault := by
  rcases effect_tick_cases (speedSelects_timerBit s.clockSpeed) with ⟨_, h⟩ | ⟨_, _, _, h⟩ | ⟨_, _, _, h⟩ <;>
    rw [h] <;> rfl

/-- The induction over a run of ticks: what holds of no ticks, and of a tick and a run after it, holds of every run. -/
theorem exists_run_of_allTicks {P : Nat → State → State → Prop} (stop : ∀ s, P 0 s s)
    (tick : ∀ n s tx t, P n (effect .tick (s.accept tx)) t → P (n + 1) s t) {txs : List Transaction} {s : State}
    (htxs : AllTicks txs) (hs : s.fault = none) : ∃ t, performAll txs s = .next t ∧ P txs.length s t := by
  induction txs generalizing s with
  | nil => exact ⟨s, rfl, stop s⟩
  | cons tx rest ih =>
    obtain ⟨hword, hrest⟩ := List.forall_mem_cons.1 htxs
    have hp : perform tx s = .next (effect .tick (s.accept tx)) :=
      (perform_tick hword).trans (exec_of_running (s := s.accept tx) hs _)
    obtain ⟨t, ht, hP⟩ := ih hrest ((effect_tick_fault (s.accept tx)).trans hs)
    exact ⟨t, by rw [performAll, hp]; exact ht, tick rest.length s tx t hP⟩

theorem divider_after_succ {d e : BitVec 16} {n : Nat} (h : e.toNat = ((d + 1#16).toNat + n) % 2 ^ 16) :
    e.toNat = (d.toNat + (n + 1)) % 2 ^ 16 := by
  rw [h, BitVec.toNat_add, BitVec.toNat_ofNat]
  omega

/-! ### With the Timer disabled (R160) -/

/-- How `n` ticks take `s` to `t` by R160: a disabled Timer advances its divider alone. -/
def DisabledRun (n : Nat) (s t : State) : Prop :=
  s.enabled = false → t.divider.toNat = (s.divider.toNat + n) % 2 ^ 16 ∧
    t = { s with
      oldDivider := t.oldDivider, divider := t.divider, answers := t.answers, draws := t.draws, response := t.response }

theorem effect_tick_of_disabled {s : State} (h : s.enabled = false) : effect .tick s = s.ticked s.counter s.IF := by
  rcases effect_tick_cases (speedSelects_timerBit s.clockSpeed) with ⟨_, ht⟩ | ⟨he, _⟩ | ⟨he, _⟩
  · exact ht
  · exact absurd (h.symm.trans he) nofun
  · exact absurd (h.symm.trans he) nofun

theorem DisabledRun.zero (s : State) : DisabledRun 0 s s := fun _ => ⟨(Nat.mod_eq_of_lt s.divider.isLt).symm, rfl⟩

theorem DisabledRun.succ (n : Nat) (s : State) (tx : Transaction) (t : State)
    (h : DisabledRun n (effect .tick (s.accept tx)) t) : DisabledRun (n + 1) s t := by
  intro he
  rw [effect_tick_of_disabled (s := s.accept tx) he] at h
  obtain ⟨hdiv, hframe⟩ := h he
  exact ⟨divider_after_succ hdiv, hframe⟩

/-- Settles O28, by the induction over a run of ticks. -/
theorem disabledTimerNeverCounts : Obligations.DisabledTimerNeverCounts := by
  intro txs s htxs hs he
  obtain ⟨t, hrun, h⟩ := exists_run_of_allTicks DisabledRun.zero DisabledRun.succ htxs hs
  exact ⟨t, hrun, h he⟩

/-! ### With the Timer enabled (R160, R169) -/

/-- The clocks of a counter driven by bit `b` in `n` ticks from divider `d`. -/
def clocksIn (b : Nat) (d : BitVec 16) (n : Nat) : Nat := (d.toNat % 2 ^ (b + 1) + n) / 2 ^ (b + 1)

theorem clocksIn_zero (b : Nat) (d : BitVec 16) : clocksIn b d 0 = 0 :=
  Nat.div_eq_of_lt (Nat.mod_lt _ (Nat.two_pow_pos _))

/-- A period divides the divider's range, so the divider's wrap does not disturb it. -/
theorem toNat_succ_mod_period {b : Nat} (hb : b ≤ 9) (d : BitVec 16) :
    (d + 1#16).toNat % 2 ^ (b + 1) = (d.toNat % 2 ^ (b + 1) + 1) % 2 ^ (b + 1) := by
  have hdvd : 2 ^ (b + 1) ∣ 2 ^ 16 := Nat.pow_dvd_pow 2 (by omega)
  rw [BitVec.toNat_add, Nat.mod_mod_of_dvd _ hdvd, BitVec.toNat_ofNat, Nat.mod_add_mod]

theorem clocksIn_succ_of_endsPeriod {b : Nat} (hb : b ≤ 9) {d : BitVec 16} (h : EndsPeriod b d) (n : Nat) :
    clocksIn b d (n + 1) = clocksIn b (d + 1#16) n + 1 := by
  have hpos := Nat.two_pow_pos (b + 1)
  have hlast : d.toNat % 2 ^ (b + 1) + 1 = 2 ^ (b + 1) := by omega
  rw [clocksIn, clocksIn, toNat_succ_mod_period hb, hlast, Nat.mod_self, Nat.zero_add, ← Nat.add_div_right n hpos]
  congr 1
  omega

theorem clocksIn_succ_of_not_endsPeriod {b : Nat} (hb : b ≤ 9) {d : BitVec 16} (h : ¬ EndsPeriod b d) (n : Nat) :
    clocksIn b d (n + 1) = clocksIn b (d + 1#16) n := by
  have hlt := Nat.mod_lt d.toNat (Nat.two_pow_pos (b + 1))
  have hnext : d.toNat % 2 ^ (b + 1) + 1 < 2 ^ (b + 1) := by omega
  rw [clocksIn, clocksIn, toNat_succ_mod_period hb, Nat.mod_eq_of_lt hnext, Nat.add_assoc, Nat.add_comm 1 n]

section Clocks

variable {k : Kind} {modulo c f c' f' : Byte} {m : Nat}

/-- `m` clocks take the counter from `c` to `c'` and IF from `f` to `f'`: below the overflow they count, and from the
overflow on kind `k` is requested and the counter runs through modulo..255. -/
def Clocked (k : Kind) (modulo : Byte) (m : Nat) (c f c' f' : Byte) : Prop :=
  (c.toNat + m < 256 → c'.toNat = c.toNat + m ∧ f' = f) ∧
  (256 ≤ c.toNat + m → c'.toNat = modulo.toNat + (c.toNat + m - 256) % (256 - modulo.toNat) ∧
    ∀ j, j < 8 → f'.getLsbD j = (decide (j = k.val) || f.getLsbD j))

theorem Clocked.zero : Clocked k modulo 0 c f c f :=
  ⟨fun _ => ⟨rfl, rfl⟩, fun h => absurd c.isLt (Nat.not_lt.2 h)⟩

/-- A first clock that counts. -/
theorem Clocked.count (hc : c.toNat < 255) (h : Clocked k modulo m (c + 1#8) f c' f') :
    Clocked k modulo (m + 1) c f c' f' := by
  have hsum : (c + 1#8).toNat + m = c.toNat + (m + 1) := by rw [toNat_succ_of_lt_255 hc]; omega
  rwa [Clocked, hsum] at h

/-- A first clock that overflows: the clocks after it start from the modulo. -/
theorem Clocked.overflow (hc : c = 0xFF#8) (h : Clocked k modulo m modulo (setBit f k.val true) c' f') :
    Clocked k modulo (m + 1) c f c' f' := by
  have hc255 : c.toNat = 255 := by rw [hc]; rfl
  have hpast : c.toNat + (m + 1) - 256 = m := by omega
  have hmodulo := modulo.isLt
  obtain ⟨hcount, hreload⟩ := h
  refine ⟨fun hlt => by omega, fun _ => ?_⟩
  rw [hpast]
  rcases Nat.lt_or_ge (modulo.toNat + m) 256 with hlt | hge
  · obtain ⟨hct, hIF⟩ := hcount hlt
    have hmod : m % (256 - modulo.toNat) = m := Nat.mod_eq_of_lt (by omega)
    refine ⟨by rw [hct, hmod], fun j _ => ?_⟩
    rw [hIF, getLsbD_setBit_true]
  · obtain ⟨hct, hIF⟩ := hreload hge
    have hmod : m % (256 - modulo.toNat) = (m - (256 - modulo.toNat)) % (256 - modulo.toNat) :=
      Nat.mod_eq_sub_mod (by omega)
    have hsub : m - (256 - modulo.toNat) = modulo.toNat + m - 256 := by omega
    refine ⟨by rw [hct, hmod, hsub], fun j hj => ?_⟩
    rw [hIF j hj, getLsbD_setBit_true, ← Bool.or_assoc, Bool.or_self]

end Clocks

/-- How `n` ticks take `s` to `t` by R160 and R169: a Timer enabled at a speed that selects bit `b` advances its divider
and clocks its counter once per period. -/
def EnabledRun (b n : Nat) (s t : State) : Prop :=
  s.enabled = true → SpeedSelects s.clockSpeed b → t.divider.toNat = (s.divider.toNat + n) % 2 ^ 16 ∧
    Clocked s.cfg.kindTimer s.modulo (clocksIn b s.divider n) s.counter s.IF t.counter t.IF ∧
    t = { s with
      oldDivider := t.oldDivider, divider := t.divider, counter := t.counter, IF := t.IF, answers := t.answers,
      draws := t.draws, response := t.response }

theorem EnabledRun.zero (b : Nat) (s : State) : EnabledRun b 0 s s := by
  intro _ _
  rw [clocksIn_zero]
  exact ⟨(Nat.mod_eq_of_lt s.divider.isLt).symm, .zero, rfl⟩

theorem EnabledRun.succ (b n : Nat) (s : State) (tx : Transaction) (t : State)
    (h : EnabledRun b n (effect .tick (s.accept tx)) t) : EnabledRun b (n + 1) s t := by
  intro he hb
  have hb9 := bit_le_of_speedSelects hb
  rcases effect_tick_cases (s := s.accept tx) hb with ⟨hn, ht⟩ | ⟨_, hp, hc, ht⟩ | ⟨_, hp, hc, ht⟩ <;> rw [ht] at h <;>
    obtain ⟨hdiv, hclocked, hframe⟩ := h he hb
  · have hp : ¬ EndsPeriod b s.divider := fun hp => hn ⟨he, hp⟩
    rw [clocksIn_succ_of_not_endsPeriod hb9 hp]
    exact ⟨divider_after_succ hdiv, hclocked, hframe⟩
  · rw [clocksIn_succ_of_endsPeriod (d := s.divider) hb9 hp]
    exact ⟨divider_after_succ hdiv, .count hc hclocked, hframe⟩
  · rw [clocksIn_succ_of_endsPeriod (d := s.divider) hb9 hp]
    exact ⟨divider_after_succ hdiv, .overflow hc hclocked, hframe⟩

/-- Settles O27, by the induction over a run of ticks. -/
theorem counterClocksOncePerPeriod : Obligations.CounterClocksOncePerPeriod := by
  rintro txs s b m htxs hs he hb rfl
  obtain ⟨t, hrun, h⟩ := exists_run_of_allTicks (EnabledRun.zero b) (EnabledRun.succ b) htxs hs
  obtain ⟨hdiv, ⟨hcount, hreload⟩, hframe⟩ := h he hb
  exact ⟨t, hrun, hdiv, hcount, hreload, hframe⟩

/-! ### DIV (R161, R162) -/

theorem highByte_toNat (d : BitVec 16) : (d.extractLsb' 8 8).toNat = d.toNat / 256 := by
  have := d.isLt
  rw [BitVec.extractLsb'_toNat, Nat.shiftRight_eq_div_pow]
  omega

theorem exec_rdDiv_of_cleared {s : State} (hs : s.fault = none) (hd : s.divider = 0x0000#16) :
    exec .rdDiv s = .next { s with response := some (.byte 0x00#8) } := by
  rw [exec_of_running hs]
  simp [effect, State.respond, hd]

/-- Settles O29: the upper 8 bits of the cleared divider are 0. -/
theorem divReadsHighByteAndClearsOnWrite : Obligations.DivReadsHighByteAndClearsOnWrite := by
  intro s v hs
  have hwrite : exec (.wrDiv v) s = .next { s with divider := 0x0000#16, response := some .ok } := exec_of_running hs _
  refine ⟨⟨_, highByte_toNat s.divider, exec_of_running hs _⟩, hwrite, fun t ht => ?_⟩
  cases hwrite.symm.trans ht
  exact exec_rdDiv_of_cleared hs rfl

/-! ### TAC (R167, R168) -/

theorem lowBits_toNat (v : Byte) : (v.extractLsb' 0 2).toNat = v.toNat % 4 := by
  rw [BitVec.extractLsb'_toNat, Nat.shiftRight_zero]

theorem tacByte_clockSpeed (s : State) : s.tacByte.extractLsb' 0 2 = s.clockSpeed :=
  BitVec.extractLsb'_append_eq_right

theorem tacByte_enabled (s : State) : s.tacByte.getLsbD 2 = s.enabled := by
  rw [State.tacByte, BitVec.getLsbD_append, BitVec.getLsbD_append]
  simp

/-- Settles O30, by the bits of a TAC read and of a written byte. -/
theorem tacHoldsSpeedAndEnable : Obligations.TacHoldsSpeedAndEnable := by
  intro s hs
  refine ⟨⟨s.tacByte, exec_of_running hs _, ?_, tacByte_enabled s⟩,
    fun v => ⟨effect (.wrTac v) s, exec_of_running hs _, lowBits_toNat v, rfl, rfl⟩⟩
  rw [← lowBits_toNat, tacByte_clockSpeed]

end Sys2Proof.Machine

/-! PROOF. The statements of 42_joypad.md: PRESS (R202), RELEASE (R203), the register JOYP (R204, R205), and the only
writers of the Joypad's fields (R206). -/

namespace Sys2Proof.Machine

/-! ### The field of a group (R200) -/

@[simp] theorem State.respond_groupField (s : State) (r : Response) (g : Group) :
    (s.respond r).groupField g = s.groupField g := by cases g <;> rfl

@[simp] theorem State.setGroupField_groupField (s : State) (g : Group) (v : BitVec 4) :
    (s.setGroupField g v).groupField g = v := by cases g <;> rfl

theorem State.setGroupField_groupField_of_ne (s : State) {g g' : Group} (h : g' ≠ g) (v : BitVec 4) :
    (s.setGroupField g' v).groupField g = s.groupField g := by
  cases g <;> cases g' <;> simp [State.groupField] at h ⊢

theorem getLsbD_setLine (v : BitVec 4) (l : Line) (n : Nat) :
    (setBit v l.val true).getLsbD n = (decide (n = l.val) || v.getLsbD n) := by
  rw [getLsbD_setBit _ _ _ _ l.isLt]
  by_cases h : n = l.val <;> simp [h]

theorem getLsbD_clearLine (v : BitVec 4) (l : Line) (n : Nat) :
    (setBit v l.val false).getLsbD n = (decide (n ≠ l.val) && v.getLsbD n) := by
  rw [getLsbD_setBit _ _ _ _ l.isLt]
  by_cases h : n = l.val <;> simp [h]

/-- Setting a line that was 1 restores the field it was cleared from. -/
theorem setLine_clearLine {v : BitVec 4} {l : Line} (h : v.getLsbD l.val = true) :
    setBit (setBit v l.val false) l.val true = v := by
  refine BitVec.eq_of_getLsbD_eq fun n _ => ?_
  rw [getLsbD_setLine, getLsbD_clearLine]
  by_cases hn : n = l.val <;> simp [hn, h]

/-! ### PRESS (R202) -/

/-- The answer to a PRESS that clears line `l` of group `g` and leaves interrupt flags `f`. -/
def State.pressed (s : State) (g : Group) (l : Line) (f : Byte) : State :=
  ({ s with IF := f }.setGroupField g (setBit (s.groupField g) l.val false)).respond .ok

@[simp] theorem State.pressed_groupField (s : State) (g : Group) (l : Line) (f : Byte) :
    (s.pressed g l f).groupField g = setBit (s.groupField g) l.val false := by cases g <;> rfl

@[simp] theorem State.pressed_IF (s : State) (g : Group) (l : Line) (f : Byte) : (s.pressed g l f).IF = f := by
  cases g <;> rfl

@[simp] theorem State.pressed_fault (s : State) (g : Group) (l : Line) (f : Byte) :
    (s.pressed g l f).fault = s.fault := by cases g <;> rfl

/-- What a PRESS does: nothing to a line already 0; a line that was 1 is cleared, with a request in a selected group. -/
theorem effect_press_cases (g : Group) (l : Line) (s : State) :
    ((s.groupField g).getLsbD l.val = false ∧ effect (.press g l) s = s.respond .ok) ∨
    ((s.groupField g).getLsbD l.val = true ∧ s.selected g = true ∧
      effect (.press g l) s = s.pressed g l (setBit s.IF s.cfg.kindJoypad.val true)) ∨
    ((s.groupField g).getLsbD l.val = true ∧ s.selected g = false ∧ effect (.press g l) s = s.pressed g l s.IF) := by
  rcases pressButton_cases s g l with ⟨hl, h⟩ | ⟨hl, hg, h⟩ | ⟨hl, hg, h⟩
  · exact .inl ⟨hl, congrArg (·.respond .ok) h⟩
  · exact .inr (.inl ⟨hl, hg, (congrArg (·.respond .ok) h).trans (by cases g <;> rfl)⟩)
  · exact .inr (.inr ⟨hl, hg, congrArg (·.respond .ok) h⟩)

/-- Settles O33, by the cases of a PRESS. -/
theorem pressClearsItsLineAndRequestsOnEdge : Obligations.PressClearsItsLineAndRequestsOnEdge := by
  intro g l s hs
  have hclear : ∀ f n, n < 4 →
      ((s.pressed g l f).groupField g).getLsbD n = (decide (n ≠ l.val) && (s.groupField g).getLsbD n) := by
    intro f n _
    rw [State.pressed_groupField, getLsbD_clearLine]
  rw [exec_of_running hs]
  rcases effect_press_cases g l s with ⟨hl, h⟩ | ⟨hl, hg, h⟩ | ⟨hl, hg, h⟩ <;> rw [h]
  · exact ⟨fun _ => rfl, fun hl' => absurd (hl.symm.trans hl') nofun⟩
  · refine ⟨fun hl' => absurd (hl.symm.trans hl') nofun, fun _ => ⟨_, rfl, hclear _, fun _ j _ => ?_,
      fun hg' => absurd (hg.symm.trans hg') nofun, by rintro rfl; rfl, by rintro rfl; rfl⟩⟩
    rw [State.pressed_IF, getLsbD_setBit_true]
  · exact ⟨fun hl' => absurd (hl.symm.trans hl') nofun, fun _ => ⟨_, rfl, hclear _,
      fun hg' => absurd (hg.symm.trans hg') nofun, fun _ => State.pressed_IF .., by rintro rfl; rfl, by rintro rfl; rfl⟩⟩

/-! ### RELEASE (R203) -/

/-- A release takes back the press of a line that was 1, but for the interrupt flags. -/
theorem effect_release_pressed {s : State} {g : Group} {l : Line} (hl : (s.groupField g).getLsbD l.val = true)
    (f : Byte) : effect (.release g l) (s.pressed g l f) = { s with IF := f, response := some .ok } := by
  rw [effect, State.pressed_groupField, setLine_clearLine hl]
  cases g <;> rfl

/-- Settles O34, by the bits of a field after one is set; a press of a released line is one of two cases of a PRESS. -/
theorem releaseSetsItsLine : Obligations.ReleaseSetsItsLine := by
  intro g l s hs
  refine ⟨⟨effect (.release g l) s, exec_of_running hs _, fun n _ => ?_, by rintro rfl; rfl, by rintro rfl; rfl⟩,
    fun hl t ht => ?_⟩
  · rw [effect, State.respond_groupField, State.setGroupField_groupField, getLsbD_setLine]
  · cases (exec_of_running hs (.press g l)).symm.trans ht
    have hrelease : ∀ f, exec (.release g l) (s.pressed g l f) = .next { s with IF := f, response := some .ok } :=
      fun f => (exec_of_running ((s.pressed_fault g l f).trans hs) _).trans (congrArg _ (effect_release_pressed hl f))
    rcases effect_press_cases g l s with ⟨hl', _⟩ | ⟨_, hg, h⟩ | ⟨_, _, h⟩
    · exact absurd (hl'.symm.trans hl) nofun
    · rw [h]
      exact ⟨_, hrelease _, rfl, (State.pressed_IF ..).symm, fun hg' => absurd (hg.symm.trans hg') nofun⟩
    · rw [h]
      exact ⟨_, hrelease _, rfl, (State.pressed_IF ..).symm, fun _ => rfl⟩

/-! ### The register JOYP (R204, R205) -/

theorem joypByte_bit5 (s : State) : s.joypByte.getLsbD 5 = !s.selectButtons := by
  rw [State.joypByte, BitVec.getLsbD_append, BitVec.getLsbD_append, BitVec.getLsbD_append]
  simp

theorem joypByte_bit4 (s : State) : s.joypByte.getLsbD 4 = !s.selectDPad := by
  rw [State.joypByte, BitVec.getLsbD_append, BitVec.getLsbD_append]
  simp

theorem joypByte_lowNibble (s : State) : s.joypByte.toNat % 16 = s.joypNibble.toNat := by
  have h : s.joypByte.extractLsb' 0 4 = s.joypNibble := BitVec.extractLsb'_append_eq_right
  rw [← h, BitVec.extractLsb'_toNat, Nat.shiftRight_zero]

/-- Settles O35, by the bits of a JOYP read; the nibble is the first selected group's field, the buttons before the pad. -/
theorem joypReadShowsTheSelectedGroup : Obligations.JoypReadShowsTheSelectedGroup := by
  intro s hs
  refine ⟨s.joypByte, exec_of_running hs _, joypByte_bit5 s, joypByte_bit4 s, fun hb => ?_, fun hb hd => ?_⟩
  · simp [joypByte_lowNibble, State.joypNibble, hb]
  · simp [joypByte_lowNibble, State.joypNibble, hb, hd]

theorem not_getLsbD_eq_decide (v : Byte) (n : Nat) : (!v.getLsbD n) = decide (v.toNat / 2 ^ n % 2 = 0) := by
  rw [BitVec.getLsbD, Nat.testBit_eq_decide_div_mod_eq, ← decide_not]
  exact decide_eq_decide.2 (by omega)

/-- Settles O36: a flag is the negation of its bit of the written byte. -/
theorem joypWriteStoresOnlyTheSelectBits : Obligations.JoypWriteStoresOnlyTheSelectBits := by
  intro s v hs
  have h5 : (!v.getLsbD 5) = decide (v.toNat / 32 % 2 = 0) := not_getLsbD_eq_decide v 5
  have h4 : (!v.getLsbD 4) = decide (v.toNat / 16 % 2 = 0) := not_getLsbD_eq_decide v 4
  rw [exec_of_running hs, effect, h5, h4]

/-! ### The only writers of the Joypad's fields (R206) -/

section Writers

variable {s t : State} {i : Instr} {g : Group} {l : Line}

theorem Shape.writer_of_groupField (h : Shape s i t) (hne : t.groupField g ≠ s.groupField g) :
    ∃ l, i = .press g l ∨ i = .release g l := by
  cases h with
  | press g' l =>
    obtain rfl | hg := eq_or_ne g' g
    · exact ⟨l, .inl rfl⟩
    · exact absurd (State.setGroupField_groupField_of_ne _ hg _) hne
  | release g' l =>
    obtain rfl | hg := eq_or_ne g' g
    · exact ⟨l, .inr rfl⟩
    · exact absurd (State.setGroupField_groupField_of_ne _ hg _) hne
  | _ => cases g <;> simp [State.groupField] at hne

theorem Shape.writer_of_select (h : Shape s i t)
    (hne : t.selectButtons ≠ s.selectButtons ∨ t.selectDPad ≠ s.selectDPad) : ∃ v, i = .wrJoyp v := by
  cases h with
  | writeJoyp v => exact ⟨v, rfl⟩
  | _ => simp at hne

/-- The inversion of a PRESS: an answer alone, or line `l` was 1 and is cleared, where a change of IF tells a selected
group. -/
theorem exec_press_next (h : exec (.press g l) s = .next t) :
    (∃ r, t = s.respond r) ∨
    ((s.groupField g).getLsbD l.val = true ∧ ∃ f, t = s.pressed g l f ∧ (f ≠ s.IF → s.selected g = true)) := by
  rcases (exec_eq_next_iff _ s t).1 h with ⟨code, _, rfl⟩ | ⟨_, rfl⟩
  · exact .inl ⟨_, rfl⟩
  · rcases effect_press_cases g l s with ⟨_, h⟩ | ⟨hl, hg, h⟩ | ⟨hl, _, h⟩
    · exact .inl ⟨_, h⟩
    · exact .inr ⟨hl, _, h, fun _ => hg⟩
    · exact .inr ⟨hl, _, h, fun hne => absurd rfl hne⟩

theorem press_flips_down (h : exec (.press g l) s = .next t) {n : Nat} (hn : (t.groupField g).getLsbD n = true) :
    (s.groupField g).getLsbD n = true := by
  rcases exec_press_next h with ⟨r, rfl⟩ | ⟨_, f, rfl, _⟩
  · rwa [State.respond_groupField] at hn
  · rw [State.pressed_groupField, getLsbD_clearLine] at hn
    exact (Bool.and_eq_true_iff.1 hn).2

theorem release_flips_up (h : exec (.release g l) s = .next t) {n : Nat} (hn : (s.groupField g).getLsbD n = true) :
    (t.groupField g).getLsbD n = true := by
  rcases (exec_eq_next_iff _ s t).1 h with ⟨code, _, rfl⟩ | ⟨_, rfl⟩
  · rwa [State.respond_groupField]
  · rw [effect, State.respond_groupField, State.setGroupField_groupField, getLsbD_setLine, hn, Bool.or_true]

theorem press_IF_edge (h : exec (.press g l) s = .next t) (hne : t.IF ≠ s.IF) :
    s.selected g = true ∧ (s.groupField g).getLsbD l.val = true := by
  rcases exec_press_next h with ⟨r, rfl⟩ | ⟨hl, f, rfl, hf⟩
  · exact absurd rfl hne
  · rw [State.pressed_IF] at hne
    exact ⟨hf hne, hl⟩

end Writers

/-- Settles O37, by the writers of each field and the inversions of PRESS and RELEASE. -/
theorem writersOfTheJoypad : Obligations.WritersOfTheJoypad := by
  intro i s t h
  have hs := shape_of_exec h
  refine ⟨hs.writer_of_groupField (g := .buttons), hs.writer_of_groupField (g := .dPad), hs.writer_of_select, ?_, ?_, ?_⟩
  · rintro g l n rfl
    exact press_flips_down h
  · rintro g l n rfl
    exact release_flips_up h
  · rintro g l rfl
    exact press_IF_edge h

end Sys2Proof.Machine

/-! PROOF. The statements of 43_rtc.md: the latch (R230, R231, R238), reads of the RTC registers (R233-R237, R240), and the
writes that always fault `ReadOnlyWrite` (R239, R241-R244, R277, R278). -/

namespace Sys2Proof.Machine

/-! ### The latch (R230) -/

theorem State.latchRtc_of_unchanged {s : State} (h : s.cfg.rtcDerive.derive s.answers.wall = s.rtcFields) :
    s.latchRtc = s := by
  rcases latchRtc_cases s with ⟨_, hl⟩ | ⟨hne, _⟩
  · exact hl
  · exact absurd h hne

theorem State.latchRtc_of_changed {s : State} (h : s.cfg.rtcDerive.derive s.answers.wall ≠ s.rtcFields) :
    s.latchRtc = (s.setRtcFields (s.cfg.rtcDerive.derive s.answers.wall)).requestInterrupt s.cfg.kindRtc := by
  rcases latchRtc_cases s with ⟨heq, _⟩ | ⟨_, hl⟩
  · exact absurd heq h
  · exact hl

@[simp] theorem State.latchRtc_rtcFields (s : State) :
    s.latchRtc.rtcFields = s.cfg.rtcDerive.derive s.answers.wall := by
  rcases latchRtc_cases s with ⟨h, hl⟩ | ⟨_, hl⟩ <;> rw [hl]
  · exact h.symm
  · rfl

theorem State.latchRtc_frame (s : State) :
    s.latchRtc = { s with IF := s.latchRtc.IF }.setRtcFields s.latchRtc.rtcFields := by
  rcases latchRtc_cases s with ⟨_, hl⟩ | ⟨_, hl⟩ <;> rw [hl] <;> rfl

@[simp] theorem State.latchRtc_cfg (s : State) : s.latchRtc.cfg = s.cfg :=
  (congrArg State.cfg s.latchRtc_frame :)

@[simp] theorem State.latchRtc_fault (s : State) : s.latchRtc.fault = s.fault :=
  (congrArg State.fault s.latchRtc_frame :)

/-- Settles O38, by whether the sample derives the fields the state holds. -/
theorem latchReplacesFieldsAndRequestsOnChange : Obligations.LatchReplacesFieldsAndRequestsOnChange := by
  intro s v hs
  refine ⟨s.latchRtc.respond .ok, exec_of_running hs .latch, exec_of_running hs (.wrRtcLatch v), s.latchRtc_rtcFields,
    fun hsame => ?unchanged, fun hne j _ => ?changed, congrArg (·.respond .ok) s.latchRtc_frame⟩
  case unchanged =>
    have hl : s.latchRtc = s := State.latchRtc_of_unchanged (s.latchRtc_rtcFields.symm.trans hsame)
    rw [hl]
    rfl
  case changed =>
    have hd : s.cfg.rtcDerive.derive s.answers.wall ≠ s.rtcFields := fun h => hne (s.latchRtc_rtcFields.trans h)
    rw [State.latchRtc_of_changed hd]
    exact getLsbD_setBit_true s.IF s.cfg.kindRtc j

/-! ### A second latch (R230, R231) -/

/-- What a latch of a running state leaves for the next one: the fields that its sample derives. -/
theorem exec_latch_next {s t : State} (hs : s.fault = none) (h : exec .latch s = .next t) :
    t.fault = none ∧ t.cfg = s.cfg ∧ t.rtcFields = s.cfg.rtcDerive.derive s.answers.wall := by
  rw [exec_of_running hs] at h
  cases h
  exact ⟨s.latchRtc_fault.trans hs, s.latchRtc_cfg, s.latchRtc_rtcFields⟩

theorem exec_latch_of_unchanged {s : State} (hs : s.fault = none)
    (h : s.cfg.rtcDerive.derive s.answers.wall = s.rtcFields) : exec .latch s = .next (s.respond .ok) := by
  rw [exec_of_running hs, effect, State.latchRtc_of_unchanged h]

theorem exec_latch_of_changed {s : State} (hs : s.fault = none)
    (h : s.cfg.rtcDerive.derive s.answers.wall ≠ s.rtcFields) :
    ∃ u, exec .latch s = .next u ∧ u.IF = setBit s.IF s.cfg.kindRtc.val true :=
  ⟨_, exec_of_running hs .latch, by rw [effect, State.latchRtc_of_changed h]; rfl⟩

/-- Settles O39: the first latch leaves the fields that its sample derives, so the second changes one exactly when its own
sample derives others. -/
theorem secondLatchRequestsOnlyAcrossASecond : Obligations.SecondLatchRequestsOnlyAcrossASecond := by
  intro s t a hs h
  obtain ⟨ht, hcfg, hfields⟩ := exec_latch_next hs h
  refine ⟨fun hw => ?same, fun hlaw hadj => ?next⟩
  case same =>
    have hd : t.cfg.rtcDerive.derive a.wall = t.rtcFields := by rw [hw, hcfg, hfields]
    exact exec_latch_of_unchanged (s := { t with answers := a }) ht hd
  case next =>
    have hd : t.cfg.rtcDerive.derive a.wall ≠ t.rtcFields := by
      rw [hcfg, hfields]
      exact (hlaw _ _ hadj).symm
    obtain ⟨u, hu, hIF⟩ := exec_latch_of_changed (s := { t with answers := a }) ht hd
    refine ⟨u, hu, ?_⟩
    rw [hIF, getLsbD_setBit_true]
    simp [hcfg]

/-! ### Reads, and writes of read-only registers (R233-R237, R239-R244, R277, R278) -/

/-- Settles O40: each read answers its byte, and its effect is that answer alone. -/
theorem rtcReadsTheLastLatch : Obligations.RtcReadsTheLastLatch :=
  fun _ hs => ⟨exec_of_running hs .rdRtcS, exec_of_running hs .rdRtcM, exec_of_running hs .rdRtcH,
    exec_of_running hs .rdRtcDl, exec_of_running hs .rdRtcDh, _, exec_of_running hs .rdRtcLatch⟩

/-- Settles O41: the effect of each of the seven forms is to take the fault. -/
theorem readOnlyWritesFault : Obligations.ReadOnlyWritesFault := by
  intro i s hs hi
  rw [exec_of_running hs]
  rcases hi with ⟨v, rfl | rfl | rfl | rfl | rfl⟩ | ⟨a, v, rfl | rfl⟩ <;> rfl

end Sys2Proof.Machine

/-! PROOF. The statements of 44_data_store.md: SETBANKCOUNT (R260), the selected bank (R261, R280-R283), the loads
(R264-R266), GOTO (R267), LOOKUP (R268), reads of the windows (R275, R276, R279), and that loaded bytes read back
(R284). -/

namespace Sys2Proof.Machine

/-! ### SETBANKCOUNT (R260) -/

section Resize

variable {s : State} {n b o : Nat}

theorem unloadedByte_resizeBanks_kept (hs : s.Inv) (hb : b < s.bankCount) (hn : b < n) :
    (s.resizeBanks n).unloadedByte b o = s.unloadedByte b o := by
  have horigin : (s.resizeBanks n).origins[b]? = s.origins[b]? :=
    getElem?_resize_of_lt _ _ _ _ (hs.originTable.symm ▸ hb) hn
  simp only [State.unloadedByte, horigin]

theorem unloadedByte_resizeBanks_added (hs : s.Inv) (hb : s.bankCount ≤ b) (hn : b < n) :
    (s.resizeBanks n).unloadedByte b o = Config.drawNewBank s.draws b o := by
  have horigin : (s.resizeBanks n).origins[b]? = some (.added s.draws) :=
    getElem?_resize_of_ge _ _ _ _ (hs.originTable.symm ▸ hb) hn
  simp only [State.unloadedByte, horigin]

theorem read_resizeBanks (hn : b < n) (ho : o < bankSize) :
    (s.resizeBanks n).banks.read (bankKey b o) = s.banks.read (bankKey b o) := by
  rw [State.resizeBanks_banks, read_below, if_pos ((bankKey_lt ho).2 hn)]

theorem bankByte_resizeBanks_kept (hs : s.Inv) (hb : b < s.bankCount) (hn : b < n) (ho : o < bankSize) :
    (s.resizeBanks n).bankByte b o = s.bankByte b o := by
  simp only [State.bankByte, read_resizeBanks hn ho, unloadedByte_resizeBanks_kept hs hb hn]

theorem bankByte_resizeBanks_added (hs : s.Inv) (hb : s.bankCount ≤ b) (hn : b < n) (ho : o < bankSize) :
    (s.resizeBanks n).bankByte b o = Config.drawNewBank s.draws b o := by
  simp only [State.bankByte, read_resizeBanks hn ho, read_none_of_ge hs hb ho, unloadedByte_resizeBanks_added hs hb hn]

theorem fillOf_resizeBanks_kept (hs : s.Inv) (hb : b < s.bankCount) (hn : b < n) :
    (s.resizeBanks n).fillOf b = s.fillOf b := by rw [fillOf_resizeBanks hs.fillTable n b hn, if_pos hb]

theorem fillOf_resizeBanks_added (hs : s.Inv) (hb : s.bankCount ≤ b) (hn : b < n) :
    (s.resizeBanks n).fillOf b = 0 := by rw [fillOf_resizeBanks hs.fillTable n b hn, if_neg (Nat.not_lt.2 hb)]

theorem resizeBanks_bankCount_self (hs : s.Inv) : s.resizeBanks s.bankCount = s := by
  rw [State.resizeBanks, below_of_inv hs, resize_self _ _ _ hs.fillTable, resize_self _ _ _ hs.originTable]

/-- SETBANKCOUNT of a count in 1..65536 is the host's to grant. -/
theorem effect_setbankcount_of_inRange (h1 : 1 ≤ n) (h2 : n ≤ 65536) : effect (.setbankcount n) s =
    if !s.answers.alloc then s.fail .allocFail else (s.resizeBanks n).respond .ok := if_neg (by omega)

end Resize

/-- Settles O42: kept and added banks by the laws of `resizeBanks`; a resize to the present count is none. -/
theorem setbankcountKeepsTheCommonBanks : Obligations.SetbankcountKeepsTheCommonBanks := by
  intro n s hs hi
  rw [exec_of_running hs]
  refine ⟨fun hn => congrArg _ (if_pos hn), fun h1 h2 ha => ?refused, fun h1 h2 ha => ?granted⟩
  case refused =>
    rw [effect_setbankcount_of_inRange h1 h2, ha]
    rfl
  case granted =>
    rw [effect_setbankcount_of_inRange h1 h2, ha]
    refine ⟨(s.resizeBanks n).respond .ok, rfl, rfl, fun b o hb hbn ho => ?_, fun b o hb hbn ho => ?_, rfl, ?_⟩
    · exact ⟨bankByte_resizeBanks_kept hi hb hbn ho, fillOf_resizeBanks_kept hi hb hbn⟩
    · exact ⟨bankByte_resizeBanks_added hi hb hbn ho, fillOf_resizeBanks_added hi hb hbn⟩
    · rintro rfl
      rw [resizeBanks_bankCount_self hi]
      rfl

/-! ### The selected bank (R261, R280-R283) -/

/-- Settles O43: each write replaces one byte of `currentBank`, so the two leave both bytes of n. -/
theorem bankSelectPairWritesCurrentBank : Obligations.BankSelectPairWritesCurrentBank := by
  intro s hs
  refine ⟨fun n => exec_of_running hs _, fun v => ⟨_, exec_of_running hs _, ?high, rfl⟩,
    fun v => ⟨_, exec_of_running hs _, ?low, rfl⟩, fun n i j hij => ?pair,
    ⟨_, exec_of_running hs _⟩, ⟨_, exec_of_running hs _⟩⟩
  case high =>
    simp [effect, append_toNat, BitVec.extractLsb'_toNat]
  case low =>
    have := s.currentBank.isLt
    simp [effect, append_toNat, BitVec.extractLsb'_toNat, Nat.shiftRight_eq_div_pow]
    omega
  case pair =>
    cases hij
    refine ⟨effect (.wrBankHi (n.extractLsb' 8 8)) s, exec_of_running hs _, (exec_of_running (by exact hs) _).trans ?_⟩
    simp only [effect, BitVec.extractLsb'_append_eq_left, bytes_append]

/-! ### LOAD and LOADFILE (R264-R266) -/

section Load

variable {s : State} {f : Bool} {name : Name} {bytes : List Byte}

theorem validName_eq_false {name : Name} (h : name.length = 0 ∨ 32 < name.length) : validName name = false := by
  rcases h with h | h <;> simp [validName, h]

theorem loadData_of_invalidName (hn : validName name = false) :
    s.loadData f name bytes = s.raise .invalidName := by simp [State.loadData, hn]

theorem loadData_of_duplicateName (hn : validName name = true) (hd : s.handles.find name ≠ none) :
    s.loadData f name bytes = s.fail .duplicateName := by
  simp [State.loadData, hn, Option.isSome_iff_ne_none.2 hd]

theorem loadData_of_bankOutOfRange (hn : validName name = true) (hd : s.handles.find name = none)
    (hb : s.bankCount ≤ (s.loadBank f).toNat) : s.loadData f name bytes = s.fail .bankOutOfRange := by
  simp [State.loadData, hn, hd, hb]

theorem loadData_of_noSpace (hn : validName name = true) (hd : s.handles.find name = none)
    (hb : (s.loadBank f).toNat < s.bankCount) (hf : bankSize < s.fillOf (s.loadBank f).toNat + bytes.length) :
    s.loadData f name bytes = s.fail .noSpace := by
  simp [State.loadData, hn, hd, Nat.not_le.2 hb, hf]

theorem loadData_of_allocFail (hn : validName name = true) (hd : s.handles.find name = none)
    (hb : (s.loadBank f).toNat < s.bankCount) (hf : s.fillOf (s.loadBank f).toNat + bytes.length ≤ bankSize)
    (ha : s.answers.alloc = false) : s.loadData f name bytes = s.fail .allocFail := by
  simp [State.loadData, hn, hd, Nat.not_le.2 hb, Nat.not_lt.2 hf, ha]

theorem loadData_of_checks (hn : validName name = true) (hd : s.handles.find name = none)
    (hb : (s.loadBank f).toNat < s.bankCount) (hf : s.fillOf (s.loadBank f).toNat + bytes.length ≤ bankSize)
    (ha : s.answers.alloc = true) : s.loadData f name bytes = s.placeData (s.loadBank f) name bytes := by
  simp [State.loadData, hn, hd, Nat.not_le.2 hb, Nat.not_lt.2 hf, ha]

/-- The inversion of a load by its answer: only one that passes every check answers a handle. -/
theorem loadData_of_answersHandle {h : Handle} (hr : (s.loadData f name bytes).response = some (.handle h)) :
    validName name = true ∧ (s.loadBank f).toNat < s.bankCount ∧
      s.fillOf (s.loadBank f).toNat + bytes.length ≤ bankSize ∧
      s.loadData f name bytes = s.placeData (s.loadBank f) name bytes ∧
      h = ⟨bytes.length, s.fillOf (s.loadBank f).toNat, s.loadBank f⟩ := by
  rcases loadData_cases s f name bytes with ⟨_, hl⟩ | ⟨_, _, hl⟩ | ⟨_, _, _, hl⟩ | ⟨_, _, _, _, hl⟩ |
    ⟨_, _, _, _, _, hl⟩ | ⟨hn, _, hb, hf, _, hl⟩ <;> rw [hl] at hr <;> cases hr
  exact ⟨hn, hb, hf, hl, rfl⟩

theorem bankByte_placeData_loaded {tb : BitVec 16} (hf : s.fillOf tb.toNat + bytes.length ≤ bankSize) {i : Nat}
    (hi : i < bytes.length) : (s.placeData tb name bytes).bankByte tb.toNat (s.fillOf tb.toNat + i) = bytes[i] := by
  rw [bankByte_placeData _ _ _ _ _ (by omega) hf, if_pos ⟨rfl, by omega, by omega⟩, Nat.add_sub_cancel_left,
    List.getD_eq_getElem _ _ hi]

end Load

/-- Settles O45: a failed check answers, and its answer is the whole effect. -/
theorem loadChecksInOrder : Obligations.LoadChecksInOrder := by
  rintro f name bytes s _ hs rfl
  rw [exec_of_running hs]
  refine ⟨fun h => ?_, fun h1 h2 hd => ?_, fun h1 h2 hd hb => ?_, fun h1 h2 hd hb hf => ?_,
    fun h1 h2 hd hb hf ha => ?_⟩
  · exact congrArg _ (loadData_of_invalidName (validName_eq_false h))
  · exact congrArg _ (loadData_of_duplicateName (validName_of_length h1 h2) hd)
  · exact congrArg _ (loadData_of_bankOutOfRange (validName_of_length h1 h2) hd hb)
  · exact congrArg _ (loadData_of_noSpace (validName_of_length h1 h2) hd hb hf)
  · exact congrArg _ (loadData_of_allocFail (validName_of_length h1 h2) hd hb hf ha)

/-- Settles O46: with the file read, the effect is that of LOAD. -/
theorem loadfileDelegatesToLoad : Obligations.LoadfileDelegatesToLoad := by
  intro f name path s hs
  refine ⟨fun hfile => ?_, fun bytes hfile => ?_⟩
  · rw [exec_of_running hs, effect, hfile]
    rfl
  · simp only [exec_of_running hs, effect, hfile]

/-- Settles O44: the load is `placeData`, whose laws say what each byte, fill position and handle is. -/
theorem loadPlacesBytesAndRecordsTheHandle : Obligations.LoadPlacesBytesAndRecordsTheHandle := by
  rintro f name bytes s tb hs hi (rfl : tb = s.loadBank f) h1 h2 hd hb hf ha
  have hload : exec (.load f name bytes) s = .next (s.placeData (s.loadBank f) name bytes) :=
    (exec_of_running hs _).trans (congrArg _ (loadData_of_checks (validName_of_length h1 h2) hd hb hf ha))
  have hfill := fun b => fillOf_placeData (s.loadBank f) name bytes b (loadBank_fill hi f hb)
  refine ⟨_, hload, fun path hfile => ?file, rfl, fun i => bankByte_placeData_loaded hf, fun b o ho hout => ?outside,
    (hfill _).trans (if_pos rfl), fun b hne => (hfill b).trans (if_neg hne), find_insert_self ..,
    fun other hne => find_insert_ne _ _ _ _ hne, rfl⟩
  case file => exact ((loadfileDelegatesToLoad f name path s hs).2 bytes hfile).trans hload
  case outside => rw [bankByte_placeData _ _ _ _ _ ho hf, if_neg hout]

/-! ### GOTO and LOOKUP (R267, R268) -/

/-- Settles O47, by whether the record's bank exists. -/
theorem gotoSelectsTheHandlesBank : Obligations.GotoSelectsTheHandlesBank := by
  intro h s hs
  rw [exec_of_running hs]
  exact ⟨fun hb => congrArg _ (if_neg (Nat.not_le.2 hb)), fun hb => congrArg _ (if_pos hb)⟩

theorem exec_lookup_of_find {s : State} (hs : s.fault = none) {name : Name} {h : Handle}
    (hf : s.handles.find name = some h) : exec (.lookup name) s = .next (s.respond (.handle h)) := by
  rw [exec_of_running hs, effect, hf]

theorem exec_lookup_of_find_none {s : State} (hs : s.fault = none) {name : Name}
    (hf : s.handles.find name = none) : exec (.lookup name) s = .next (s.respond .absent) := by
  rw [exec_of_running hs, effect, hf]

/-- Settles O48: in a table in canonical form a name has one entry, the one that `find` finds. -/
theorem lookupFindsTheExactName : Obligations.LookupFindsTheExactName :=
  fun _ _ hs hwf => ⟨fun _ hm => exec_lookup_of_find hs (find_of_mem hwf hm),
    fun hm => exec_lookup_of_find_none hs (find_eq_none_of_not_mem hm)⟩

/-! ### Reads of the windows (R275, R276, R279) -/

section Windows

variable {s : State} {a : Addr}

theorem readWindow_low (h : a.toNat < 0x4000) : s.readWindow a = s.respond (.byte (s.bankByte 0 a.toNat)) := by
  rcases readWindow_cases s a with ⟨_, hr⟩ | ⟨hge, _⟩ | ⟨hge, _⟩
  · exact hr
  · omega
  · omega

theorem readWindow_high (h : 0x4000 ≤ a.toNat) (hb : s.currentBank.toNat < s.bankCount) :
    s.readWindow a = s.respond (.byte (s.bankByte s.currentBank.toNat (a.toNat - 0x4000))) := by
  rcases readWindow_cases s a with ⟨hlt, _⟩ | ⟨_, _, hr⟩ | ⟨_, hge, _⟩
  · omega
  · exact hr
  · omega

theorem readWindow_unmapped (h : 0x4000 ≤ a.toNat) (hb : s.bankCount ≤ s.currentBank.toNat) :
    s.readWindow a = s.respond (.fail .bankUnmapped) := by
  rcases readWindow_cases s a with ⟨hlt, _⟩ | ⟨_, hlt, _⟩ | ⟨_, _, hr⟩
  · omega
  · omega
  · exact hr

theorem exec_readbyte_of_window (hs : s.fault = none) (h : a.toNat < 0x8000) :
    exec (.readbyte a) s = .next (s.readWindow a) :=
  (exec_of_running hs _).trans (congrArg _ (if_neg (Nat.not_le.2 h)))

end Windows

/-- Settles O49, by the cases of a window read. -/
theorem readbyteReadsTheWindows : Obligations.ReadbyteReadsTheWindows := by
  intro a s hs
  refine ⟨fun h => ?_, fun h h' hb => ?_, fun h h' hb => ?_, fun h => ?_⟩
  · rw [exec_readbyte_of_window hs (by omega), readWindow_low h]
    rfl
  · rw [exec_readbyte_of_window hs h', readWindow_high h hb]
    rfl
  · rw [exec_readbyte_of_window hs h', readWindow_unmapped h hb]
    rfl
  · exact (exec_of_running hs _).trans (congrArg _ (if_pos h))

theorem exec_rdRom0_eq_readbyte {s : State} (hs : s.fault = none) (a : BitVec 14) :
    exec (.rdRom0 a) s = exec (.readbyte (0b00#2 ++ a)) s := by
  have haddr := lowWindow_toNat a
  have hlt := a.isLt
  rw [exec_readbyte_of_window hs (by omega), readWindow_low (by omega), haddr, exec_of_running hs, effect]

theorem exec_rdRomx_eq_readbyte {s : State} (hs : s.fault = none) (a : BitVec 14) :
    exec (.rdRomx a) s = exec (.readbyte (0b01#2 ++ a)) s := by
  have haddr := highWindow_toNat a
  have hlt := a.isLt
  rw [exec_readbyte_of_window hs (by omega), exec_of_running hs, effect]
  by_cases hb : s.currentBank.toNat < s.bankCount
  · rw [readWindow_high (by omega) hb, if_neg (Nat.not_le.2 hb), haddr, Nat.add_sub_cancel_left]
  · rw [readWindow_unmapped (by omega) (Nat.not_lt.1 hb), if_pos (Nat.not_lt.1 hb), State.fail]

/-- Settles O50, by whether the selected bank exists. -/
theorem windowReadsMatchReadbyte : Obligations.WindowReadsMatchReadbyte :=
  fun a _ hs => ⟨exec_of_running hs _, fun hb => (exec_of_running hs _).trans (congrArg _ (if_neg (Nat.not_le.2 hb))),
    fun hb => (exec_of_running hs _).trans (congrArg _ (if_pos hb)), exec_rdRom0_eq_readbyte hs a,
    exec_rdRomx_eq_readbyte hs a⟩

/-! ### Loaded bytes stay until their bank is discarded (R284) -/

/-- The state holds `bytes` at the record's place: its bank exists, they lie below the fill position, where no later
load writes, and each is the byte of the bank there. -/
structure State.Stores (s : State) (h : Handle) (bytes : List Byte) : Prop where
  bank : h.bank.toNat < s.bankCount
  belowFill : h.address + bytes.length ≤ s.fillOf h.bank.toNat
  loaded : ∀ i (hi : i < bytes.length), s.bankByte h.bank.toNat (h.address + i) = bytes[i]

theorem bankByte_congr {s t : State} (hbanks : t.banks = s.banks) (horigins : t.origins = s.origins) (b o : Nat) :
    t.bankByte b o = s.bankByte b o := by simp only [State.bankByte, State.unloadedByte, hbanks, horigins]

theorem fillOf_le {s : State} (hs : s.Inv) {b : Nat} (hb : b < s.bankCount) : s.fillOf b ≤ bankSize := by
  have hb' : b < s.fill.length := hs.fillTable.symm ▸ hb
  rw [State.fillOf, List.getD_eq_getElem _ _ hb']
  exact hs.fillRange _ (List.getElem_mem hb')

section Stores

variable {s t : State} {h : Handle} {bytes : List Byte}

/-- Only the bank array is read. -/
theorem State.Stores.congr (hst : s.Stores h bytes) (hcount : t.bankCount = s.bankCount) (hbanks : t.banks = s.banks)
    (hfill : t.fill = s.fill) (horigins : t.origins = s.origins) : t.Stores h bytes where
  bank := hcount ▸ hst.bank
  belowFill := by
    rw [State.fillOf, hfill]
    exact hst.belowFill
  loaded i hi := (bankByte_congr hbanks horigins _ _).trans (hst.loaded i hi)

theorem State.Stores.lt_bankSize (hst : s.Stores h bytes) (hs : s.Inv) {i : Nat} (hi : i < bytes.length) :
    h.address + i < bankSize := by
  have h1 := hst.belowFill
  have h2 := fillOf_le hs hst.bank
  omega

theorem stores_placeData (hs : s.Inv) {tb : BitVec 16} (name : Name) (hb : tb.toNat < s.bankCount)
    (hf : s.fillOf tb.toNat + bytes.length ≤ bankSize) :
    (s.placeData tb name bytes).Stores ⟨bytes.length, s.fillOf tb.toNat, tb⟩ bytes where
  bank := hb
  belowFill := by rw [fillOf_placeData _ _ _ _ (hs.fillTable.symm ▸ hb), if_pos rfl]
  loaded _ hi := bankByte_placeData_loaded hf hi

/-- A later load writes at and above the fill position. -/
theorem State.Stores.placeData (hst : s.Stores h bytes) (hs : s.Inv) {tb : BitVec 16} (name : Name)
    {bytes' : List Byte} (hb : tb.toNat < s.bankCount) (hf : s.fillOf tb.toNat + bytes'.length ≤ bankSize) :
    (s.placeData tb name bytes').Stores h bytes where
  bank := hst.bank
  belowFill := by
    have hbelow := hst.belowFill
    rw [fillOf_placeData _ _ _ _ (hs.fillTable.symm ▸ hb)]
    split
    · next heq =>
      rw [heq] at hbelow
      omega
    · exact hbelow
  loaded i hi := by
    have hbelow := hst.belowFill
    have hout : ¬ (h.bank.toNat = tb.toNat ∧ s.fillOf tb.toNat ≤ h.address + i ∧
        h.address + i < s.fillOf tb.toNat + bytes'.length) := by
      rintro ⟨heq, hge, _⟩
      rw [heq] at hbelow
      omega
    rw [bankByte_placeData _ _ _ _ _ (hst.lt_bankSize hs hi) hf, if_neg hout]
    exact hst.loaded i hi

theorem State.Stores.resizeBanks (hst : s.Stores h bytes) (hs : s.Inv) {n : Nat} (hn : h.bank.toNat < n) :
    (s.resizeBanks n).Stores h bytes where
  bank := hn
  belowFill := (fillOf_resizeBanks_kept hs hst.bank hn).symm ▸ hst.belowFill
  loaded i hi := (bankByte_resizeBanks_kept hs hst.bank hn (hst.lt_bankSize hs hi)).trans (hst.loaded i hi)

/-- Only a granted SETBANKCOUNT to the record's bank or below discards its bytes. -/
theorem Shape.keeps_stores {i : Instr} (hsh : Shape s i t) (hs : s.Inv)
    (hn : ∀ n, i = .setbankcount n → s.answers.alloc = true → h.bank.toNat < n) (hst : s.Stores h bytes) :
    t.Stores h bytes := by
  cases hsh with
  | resizeBanks n _ _ ha => exact (hst.resizeBanks hs (hn n rfl ha)).congr rfl rfl rfl rfl
  | load f name bytes' _ _ hb hf => exact hst.placeData hs name hb hf
  | loadfile f name path bytes' _ _ hb hf => exact hst.placeData hs name hb hf
  | _ => exact hst.congr (by simp) (by simp) (by simp) (by simp)

end Stores

/-! ### Runs that keep a bank (R284) -/

/-- The transaction is no granted SETBANKCOUNT to bank `b` or below, as its word decodes under `c`. -/
def KeepsBank (c : Config) (b : BitVec 16) (tx : Transaction) : Prop :=
  ∀ n, decode c tx.word tx.payload = .ok (.setbankcount n) → tx.answers.alloc = true → b.toNat < n

/-- What a run that keeps the record's bank keeps: the configuration `c`, the invariant, and the stored bytes. -/
def HoldsUnder (c : Config) (h : Handle) (bytes : List Byte) (s : State) : Prop :=
  s.cfg = c ∧ s.Inv ∧ s.Stores h bytes

theorem perform_keeps_holds {c : Config} {h : Handle} {bytes : List Byte} {tx : Transaction} {s t : State}
    (htx : KeepsBank c h.bank tx) (hp : perform tx s = .next t) (hs : HoldsUnder c h bytes s) :
    HoldsUnder c h bytes t := by
  obtain ⟨rfl, hi, hst⟩ := hs
  have hacc : (s.accept tx).Stores h bytes := hst.congr rfl rfl rfl rfl
  have ht : t.Inv := perform_inv hp hi
  rcases perform_next hp with ⟨code, _, rfl⟩ | ⟨_, i, hd, he⟩ | ⟨_, _, rfl⟩
  · exact ⟨rfl, ht, hacc.congr rfl rfl rfl rfl⟩
  · have hsh := shape_of_exec he
    exact ⟨hsh.keeps_ownFields.1, ht, hsh.keeps_stores (accept_inv hi tx) (fun n hn => htx n (hn ▸ hd)) hacc⟩
  · exact ⟨rfl, ht, hacc.congr rfl rfl rfl rfl⟩

theorem performAll_keeps_holds {c : Config} {h : Handle} {bytes : List Byte} {txs : List Transaction} {s t : State}
    (htxs : ∀ tx ∈ txs, KeepsBank c h.bank tx) (hrun : performAll txs s = .next t) (hs : HoldsUnder c h bytes s) :
    HoldsUnder c h bytes t := by
  induction txs generalizing s with
  | nil =>
    cases hrun
    exact hs
  | cons tx rest ih =>
    obtain ⟨htx, hrest⟩ := List.forall_mem_cons.1 htxs
    cases hp : perform tx s with
    | next u =>
      rw [performAll, hp] at hrun
      exact ih hrest hrun (perform_keeps_holds htx hp hs)
    | fault | refused => simp [performAll, hp] at hrun

/-! ### Stored bytes read back (R284) -/

section ReadBack

variable {u : State} {h : Handle} {bytes : List Byte} {i : Nat}

theorem exec_readbyte_low_of_stores (hu : u.fault = none) (hi : u.Inv) (hst : u.Stores h bytes)
    (hlt : i < bytes.length) (hb : h.bank = 0#16) :
    exec (.readbyte (BitVec.ofNat 16 (h.address + i))) u = .next (u.respond (.byte bytes[i])) := by
  have ho : h.address + i < 16384 := hst.lt_bankSize hi hlt
  have haddr : (BitVec.ofNat 16 (h.address + i)).toNat = h.address + i :=
    (BitVec.toNat_ofNat ..).trans (Nat.mod_eq_of_lt (by omega))
  have hbank : h.bank.toNat = 0 := hb ▸ rfl
  rw [exec_readbyte_of_window hu (by omega), readWindow_low (by omega), haddr, ← hst.loaded i hlt, hbank]

theorem exec_readbyte_high_of_stores (hu : u.fault = none) (hi : u.Inv) (hst : u.Stores h bytes)
    (hlt : i < bytes.length) (hb : u.currentBank = h.bank) :
    exec (.readbyte (BitVec.ofNat 16 (0x4000 + h.address + i))) u = .next (u.respond (.byte bytes[i])) := by
  have ho : h.address + i < 16384 := hst.lt_bankSize hi hlt
  have haddr : (BitVec.ofNat 16 (0x4000 + h.address + i)).toNat = 0x4000 + (h.address + i) := by
    rw [BitVec.toNat_ofNat, Nat.mod_eq_of_lt (by omega), Nat.add_assoc]
  rw [exec_readbyte_of_window hu (by omega), readWindow_high (by omega) (hb ▸ hst.bank), haddr,
    Nat.add_sub_cancel_left, hb, hst.loaded i hlt]

/-- GOTO selects the record's bank and leaves the bank array. -/
theorem exec_readbyte_after_goto (hu : u.fault = none) (hi : u.Inv) (hst : u.Stores h bytes)
    (hlt : i < bytes.length) :
    ∃ v, exec (.gotoHandle h) u = .next v ∧
      exec (.readbyte (BitVec.ofNat 16 (0x4000 + h.address + i))) v = .next (v.respond (.byte bytes[i])) :=
  ⟨_, (gotoSelectsTheHandlesBank h u hu).1 hst.bank,
    exec_readbyte_high_of_stores (u := { u with currentBank := h.bank, response := some .ok }) hu { hi with }
      (hst.congr rfl rfl rfl rfl) hlt rfl⟩

end ReadBack

/-- Settles O52: the load stores its bytes and its handle, every run that keeps the bank keeps both, and stored bytes
read back. -/
theorem loadedBytesReadBack : Obligations.LoadedBytesReadBack := by
  intro s t u f name bytes h txs hs hrun hload hresp htxs hall hu
  cases (exec_of_running hrun (.load f name bytes)).symm.trans hload
  obtain ⟨hn, hb, hf, hplace, rfl⟩ := loadData_of_answersHandle hresp
  rw [effect, hplace] at hall
  have hplaced := placeData_inv hs _ name bytes hn hb hf
  obtain ⟨_, hi, hst⟩ := performAll_keeps_holds htxs hall ⟨rfl, hplaced, stores_placeData hs name hb hf⟩
  have hfind := handlesAreNeverChanged txs _ u name _ hall (find_insert_self ..)
  have hdup : u.handles.find name ≠ none := by
    rw [hfind]
    nofun
  exact ⟨rfl, fun i hlt => ⟨exec_readbyte_low_of_stores hu hi hst hlt, exec_readbyte_after_goto hu hi hst hlt⟩,
    fun _ _ => (exec_of_running hu _).trans (congrArg _ (loadData_of_duplicateName hn hdup)), hfind⟩

end Sys2Proof.Machine

/-! PROOF. The statement of 45_register_bus.md: every access to an unmapped address faults (R312, R313). -/

namespace Sys2Proof

/-! ### The words of unmapped addresses (R62, R96) -/

section Unmapped

variable {c : Config} {a : Addr} (h : 0x8000 ≤ a.toNat) (hn : a ∉ c.addresses)

include h hn

theorem decodeRead_unmapped : decodeRead c a = .rdUnmapped a := by
  rw [decodeRead, decodeAddr_unmapped h hn]

theorem decodeWrite_unmapped (v : Byte) : decodeWrite c a v = .wrUnmapped a v := by
  rw [decodeWrite, decodeAddr_unmapped h hn]

theorem decode_rdWord_unmapped (p : Payload) : decode c (rdWord a) p = .ok (.rdUnmapped a) := by
  rw [decode_rdWord, decodeRead_unmapped h hn]

theorem decode_wrWord_unmapped (v : Byte) (p : Payload) : decode c (wrWord a v) p = .ok (.wrUnmapped a v) := by
  rw [decode_wrWord, decodeWrite_unmapped h hn]

end Unmapped

end Sys2Proof

namespace Sys2Proof.Machine

/-- Settles O51: the effect of either access is the fault, and the address decode sends every unmapped address to it. -/
theorem unmappedAccessFaults : Obligations.UnmappedAccessFaults :=
  fun _ a v hs => ⟨exec_of_running hs (.rdUnmapped a), exec_of_running hs (.wrUnmapped a v),
    fun h hn p => ⟨decode_rdWord_unmapped h hn p, decode_wrWord_unmapped h hn v p⟩⟩

end Sys2Proof.Machine

/-! PROOF. The statements of 60_exceptions.md: faults (R330, R331), failures (R332), interrupt sources (R334), the end of
a pending kind (R335) and priority (R129, R337). -/

namespace Sys2Proof.Machine

/-! ### A faulted state is stuck (R331, R387) -/

theorem exec_of_fault {s : State} {code : FaultCode} (h : s.fault = some code) (i : Instr) :
    exec i s = .next (s.respond (.faulted code)) := by rw [exec_eq_transact, transact_of_fault h]

theorem performAll_of_fault {s : State} {code : FaultCode} (h : s.fault = some code) (txs : List Transaction) :
    ∃ t, performAll txs s = .next t ∧ t = { s with answers := t.answers, draws := t.draws, response := t.response } := by
  induction txs generalizing s with
  | nil => exact ⟨s, rfl, rfl⟩
  | cons tx rest ih =>
    obtain ⟨t, hrun, hframe⟩ := ih (s := (s.accept tx).respond (.faulted code)) h
    exact ⟨t, by rw [performAll, perform_faulted h]; exact hrun, hframe⟩

theorem responses_of_fault {s : State} {code : FaultCode} (h : s.fault = some code) (txs : List Transaction) :
    responses txs s = List.replicate txs.length (some (.faulted code)) := by
  induction txs generalizing s with
  | nil => rfl
  | cons tx rest ih =>
    have hrest := ih (s := (s.accept tx).respond (.faulted code)) h
    rw [responses, perform_faulted h]
    exact congrArg (some (.faulted code) :: ·) hrest

/-- Settles O10, by the runs of a faulted state. -/
theorem faultedRunNeverRecovers : Obligations.FaultedRunNeverRecovers :=
  fun txs _ _ h => ⟨responses_of_fault h txs, performAll_of_fault h txs⟩

theorem not_endsWell_of_fault {s : State} {code : FaultCode} (h : s.fault = some code) (txs : List Transaction) :
    ¬ EndsWell txs s := by
  rintro ⟨⟨t, hrun, hnone⟩, _⟩
  obtain ⟨u, hrun', hframe⟩ := performAll_of_fault h txs
  cases hrun.symm.trans hrun'
  have hfault : t.fault = s.fault := (congrArg State.fault hframe :)
  rw [hnone, h] at hfault
  cases hfault

/-- A transaction that ends faulted from a running state has raised that fault, and done nothing else. -/
theorem perform_raises {s t : State} {tx : Transaction} {code : FaultCode} (hs : s.fault = none)
    (hp : perform tx s = .next t) (ht : t.fault = some code) : t = (s.accept tx).raise code := by
  rcases perform_next hp with ⟨code', hc, _⟩ | ⟨_, i, _, he⟩ | ⟨_, _, rfl⟩
  · rw [hs] at hc
    cases hc
  · cases (exec_of_running (s := s.accept tx) hs i).symm.trans he
    exact effect_fault i (s.accept tx) hs code ht
  · cases ht
    rfl

/-- Settles O9: a faulted state answers its fault, and only `raise` sets one. -/
theorem faultsAreStickyAndChangeNothingElse : Obligations.FaultsAreStickyAndChangeNothingElse :=
  ⟨fun _ _ h => ⟨exec_of_fault h, perform_faulted h, not_endsWell_of_fault h⟩,
    fun _ _ _ _ hs hp ht => perform_raises hs hp ht⟩

/-! ### The tables of faults and failures (R330, R332) -/

/-- The operations on a kind (R98). -/
abbrev IsKindOp (k : Kind) (i : Instr) : Prop :=
  i = .req k ∨ i = .cancel k ∨ (∃ f, i = .setie k f) ∨ ∃ p, i = .sethandler k p

/-- The instruction loads `bytes` under `name`: a LOAD, or a LOADFILE whose file holds them (R264, R266). -/
def Loads (s : State) (i : Instr) (f : Bool) (name : Name) (bytes : List Byte) : Prop :=
  i = .load f name bytes ∨ (s.answers.file = some bytes ∧ ∃ path, i = .loadfile f name path)

/-- R330's table: the operations and the cause of each code, less the decoder's `IllegalOperation`. -/
def Raises (s : State) (i : Instr) : FaultCode → Prop
  | .illegalOperation => s.svc = .idle ∧ ∃ r, i = .hret r
  | .invalidKind => ∃ k : Kind, s.cfg.intKindCount ≤ k.val ∧ IsKindOp k i
  | .unmappedAddress => (∃ a, i = .rdUnmapped a) ∨ ∃ a v, i = .wrUnmapped a v
  | .readOnlyWrite => (∃ a v, i = .wrRom0 a v) ∨ (∃ a v, i = .wrRomx a v) ∨
      ∃ v, i = .wrRtcS v ∨ i = .wrRtcM v ∨ i = .wrRtcH v ∨ i = .wrRtcDl v ∨ i = .wrRtcDh v
  | .reentrantService => s.svc ≠ .idle ∧ i = .service
  | .invalidBankCount => ∃ n, (n < 1 ∨ 65536 < n) ∧ i = .setbankcount n
  | .invalidName => ∃ f name bytes, validName name = false ∧ Loads s i f name bytes
  | .addressOutOfWindow => ∃ a : Addr, 0x8000 ≤ a.toNat ∧ i = .readbyte a

/-- R332's table: the operations and the cause of each reason. -/
def Fails (s : State) (i : Instr) : FailReason → Prop
  | .bankUnmapped => s.bankCount ≤ s.currentBank.toNat ∧
      ((∃ a, i = .rdRomx a) ∨ ∃ a : Addr, 0x4000 ≤ a.toNat ∧ i = .readbyte a)
  | .bankOutOfRange => (∃ h : Handle, s.bankCount ≤ h.bank.toNat ∧ i = .gotoHandle h) ∨
      ∃ f name bytes, s.bankCount ≤ (s.loadBank f).toNat ∧ Loads s i f name bytes
  | .duplicateName => ∃ f name bytes, (s.handles.find name).isSome = true ∧ Loads s i f name bytes
  | .noSpace => ∃ f name bytes, bankSize < s.fillOf (s.loadBank f).toNat + bytes.length ∧ Loads s i f name bytes
  | .allocFail => s.answers.alloc = false ∧ ((∃ f name bytes, Loads s i f name bytes) ∨ ∃ n, i = .setbankcount n)
  | .fileError => s.answers.file = none ∧ ∃ f name path, i = .loadfile f name path

/-- A response that is no failure, no `Absent` and no fault. -/
def Response.isSuccess : Response → Bool
  | .fail _ | .absent | .faulted _ => false
  | .byte _ | .ok | .handle _ | .service _ | .pending => true

/-- How instruction `i` on the running state `s` may end in `t`: by a fault or a failure of the tables, by `Absent`, or
by a success. -/
inductive Ends (s : State) (i : Instr) : State → Prop
  | faults {code : FaultCode} (h : Raises s i code) : Ends s i (s.raise code)
  | fails {r : FailReason} (h : Fails s i r) : Ends s i (s.respond (.fail r))
  | absent (name : Name) (h : s.handles.find name = none) (hi : i = .lookup name) : Ends s i (s.respond .absent)
  | succeeds {t : State} (hf : t.fault = s.fault) (hr : t.response.any Response.isSuccess = true) : Ends s i t

section SharedEnds

variable {s : State} {i : Instr}

theorem effect_of_kindOp {k : Kind} (hi : IsKindOp k i) (hk : s.cfg.intKindCount ≤ k.val) :
    effect i s = s.raise .invalidKind := by
  rcases hi with rfl | rfl | ⟨_, rfl⟩ | ⟨_, rfl⟩ <;> exact if_pos hk

theorem effect_kindOp_ends {k : Kind} (hi : IsKindOp k i) : Ends s i (effect i s) := by
  by_cases hk : s.cfg.intKindCount ≤ k.val
  · rw [effect_of_kindOp hi hk]
    exact .faults (code := .invalidKind) ⟨k, hk, hi⟩
  · rcases hi with rfl | rfl | ⟨_, rfl⟩ | ⟨_, rfl⟩ <;> rw [effect, withKind, if_neg hk] <;> exact .succeeds rfl rfl

theorem loadData_ends {f : Bool} {name : Name} {bytes : List Byte} (hi : Loads s i f name bytes) :
    Ends s i (s.loadData f name bytes) := by
  rcases loadData_cases s f name bytes with ⟨hn, h⟩ | ⟨_, hd, h⟩ | ⟨_, _, hb, h⟩ | ⟨_, _, _, hf, h⟩ |
    ⟨_, _, _, _, ha, h⟩ | ⟨_, _, _, _, _, h⟩ <;> rw [h]
  · exact .faults (code := .invalidName) ⟨f, name, bytes, hn, hi⟩
  · exact .fails (r := .duplicateName) ⟨f, name, bytes, hd, hi⟩
  · exact .fails (r := .bankOutOfRange) (.inr ⟨f, name, bytes, hb, hi⟩)
  · exact .fails (r := .noSpace) ⟨f, name, bytes, hf, hi⟩
  · exact .fails (r := .allocFail) ⟨ha, .inl ⟨f, name, bytes, hi⟩⟩
  · exact .succeeds rfl rfl

end SharedEnds

theorem effect_service_ends (s : State) : Ends s .service (effect .service s) := by
  rcases service_cases s with ⟨hn, h⟩ | ⟨_, _, h⟩ | ⟨k, _, _, _, h⟩ <;> rw [h]
  · exact .faults (code := .reentrantService) ⟨hn, rfl⟩
  · exact .succeeds rfl rfl
  · refine .succeeds (State.acknowledge_fault ..) ?_
    rw [State.acknowledge_response]
    split <;> rfl

theorem effect_readbyte_ends (a : Addr) (s : State) : Ends s (.readbyte a) (effect (.readbyte a) s) := by
  rw [effect]
  split
  · next ha => exact .faults (code := .addressOutOfWindow) ⟨a, ha, rfl⟩
  · rcases readWindow_cases s a with ⟨_, h⟩ | ⟨_, _, h⟩ | ⟨ha, hb, h⟩ <;> rw [h]
    · exact .succeeds rfl rfl
    · exact .succeeds rfl rfl
    · exact .fails (r := .bankUnmapped) ⟨hb, .inr ⟨a, ha, rfl⟩⟩

theorem effect_setbankcount_ends (n : Nat) (s : State) : Ends s (.setbankcount n) (effect (.setbankcount n) s) := by
  rw [effect]
  split
  · next hn => exact .faults (code := .invalidBankCount) ⟨n, hn, rfl⟩
  · split
    · next ha => exact .fails (r := .allocFail) ⟨by simpa using ha, .inr ⟨n, rfl⟩⟩
    · exact .succeeds rfl rfl

theorem effect_press_fault (g : Group) (l : Line) (s : State) : (effect (.press g l) s).fault = s.fault := by
  rcases effect_press_cases g l s with ⟨_, h⟩ | ⟨_, _, h⟩ | ⟨_, _, h⟩ <;> rw [h] <;> simp

/-- Every instruction ends as the tables say, or succeeds. -/
theorem effect_ends (i : Instr) (s : State) : Ends s i (effect i s) := by
  cases i with
  | req k => exact effect_kindOp_ends (.inl rfl)
  | cancel k => exact effect_kindOp_ends (.inr (.inl rfl))
  | setie k f => exact effect_kindOp_ends (.inr (.inr (.inl ⟨f, rfl⟩)))
  | sethandler k p => exact effect_kindOp_ends (.inr (.inr (.inr ⟨p, rfl⟩)))
  | service => exact effect_service_ends s
  | hret r =>
    rw [effect]
    split
    · next hs => exact .faults (code := .illegalOperation) ⟨hs, r, rfl⟩
    · exact .succeeds rfl rfl
  | load f name bytes => exact loadData_ends (.inl rfl)
  | loadfile f name path =>
    rw [effect]
    split
    · next hfile => exact .fails (r := .fileError) ⟨hfile, f, name, path, rfl⟩
    · next bytes hfile => exact loadData_ends (.inr ⟨hfile, path, rfl⟩)
  | setbankcount n => exact effect_setbankcount_ends n s
  | gotoHandle h =>
    rw [effect]
    split
    · next hb => exact .fails (r := .bankOutOfRange) (.inl ⟨h, hb, rfl⟩)
    · exact .succeeds rfl rfl
  | lookup name =>
    rw [effect]
    split
    · exact .succeeds rfl rfl
    · next hf => exact .absent name hf rfl
  | readbyte a => exact effect_readbyte_ends a s
  | rdRomx a =>
    rw [effect]
    split
    · next hb => exact .fails (r := .bankUnmapped) ⟨hb, .inl ⟨a, rfl⟩⟩
    · exact .succeeds rfl rfl
  | wrRom0 a v => exact .faults (code := .readOnlyWrite) (.inl ⟨a, v, rfl⟩)
  | wrRomx a v => exact .faults (code := .readOnlyWrite) (.inr (.inl ⟨a, v, rfl⟩))
  | wrRtcS v | wrRtcM v | wrRtcH v | wrRtcDl v | wrRtcDh v =>
    exact .faults (code := .readOnlyWrite) (.inr (.inr ⟨v, by simp⟩))
  | rdUnmapped a => exact .faults (code := .unmappedAddress) (.inl ⟨a, rfl⟩)
  | wrUnmapped a v => exact .faults (code := .unmappedAddress) (.inr ⟨a, v, rfl⟩)
  | tick => exact .succeeds (effect_tick_fault s) rfl
  | press g l => exact .succeeds (effect_press_fault g l s) rfl
  | release g l => exact .succeeds (State.setGroupField_fault ..) rfl
  | latch | wrRtcLatch => exact .succeeds s.latchRtc_fault rfl
  | _ => exact .succeeds rfl rfl

/-! ### Faults by the table (R330) -/

section Faults

variable {s t : State} {i : Instr} {code : FaultCode}

theorem Ends.raises (h : Ends s i t) (hs : s.fault = none) (ht : t.fault = some code) : Raises s i code := by
  cases h with
  | faults h =>
    cases ht
    exact h
  | fails | absent => cases hs.symm.trans ht
  | succeeds hf => cases (hf.trans hs).symm.trans ht

theorem effect_of_loads {f : Bool} {name : Name} {bytes : List Byte} (h : Loads s i f name bytes) :
    effect i s = s.loadData f name bytes := by
  rcases h with rfl | ⟨hfile, path, rfl⟩
  · rfl
  · simp only [effect, hfile]

theorem Raises.effect_eq (h : Raises s i code) : effect i s = s.raise code := by
  cases code with
  | illegalOperation =>
    obtain ⟨hs, r, rfl⟩ := h
    exact if_pos hs
  | invalidKind =>
    obtain ⟨k, hk, hi⟩ := h
    exact effect_of_kindOp hi hk
  | unmappedAddress => rcases h with ⟨a, rfl⟩ | ⟨a, v, rfl⟩ <;> rfl
  | readOnlyWrite => rcases h with ⟨a, v, rfl⟩ | ⟨a, v, rfl⟩ | ⟨v, rfl | rfl | rfl | rfl | rfl⟩ <;> rfl
  | reentrantService =>
    obtain ⟨hs, rfl⟩ := h
    exact if_pos hs
  | invalidBankCount =>
    obtain ⟨n, hn, rfl⟩ := h
    exact if_pos hn
  | invalidName =>
    obtain ⟨f, name, bytes, hn, hi⟩ := h
    rw [effect_of_loads hi, loadData_of_invalidName hn]
  | addressOutOfWindow =>
    obtain ⟨a, ha, rfl⟩ := h
    exact if_pos ha

/-- A running state takes exactly the faults of the table. -/
theorem effect_fault_iff_raises (i : Instr) (hs : s.fault = none) (code : FaultCode) :
    (effect i s).fault = some code ↔ Raises s i code :=
  ⟨fun h => (effect_ends i s).raises hs h, fun h => congrArg State.fault h.effect_eq⟩

theorem validName_eq_false_iff (name : Name) : validName name = false ↔ name.length = 0 ∨ 32 < name.length := by
  refine ⟨fun h => ?_, validName_eq_false⟩
  simp only [validName, Bool.and_eq_false_iff, decide_eq_false_iff_not] at h
  omega

theorem raises_invalidName_iff (s : State) (i : Instr) : Raises s i .invalidName ↔
    ∃ f name, (name.length = 0 ∨ 32 < name.length) ∧
      ((∃ bytes, i = .load f name bytes) ∨ (s.answers.file ≠ none ∧ ∃ path, i = .loadfile f name path)) := by
  constructor
  · rintro ⟨f, name, bytes, hn, hi | ⟨hfile, hi⟩⟩
    · exact ⟨f, name, (validName_eq_false_iff name).1 hn, .inl ⟨bytes, hi⟩⟩
    · exact ⟨f, name, (validName_eq_false_iff name).1 hn, .inr ⟨by simp [hfile], hi⟩⟩
  · rintro ⟨f, name, hn, ⟨bytes, hi⟩ | ⟨hfile, hi⟩⟩
    · exact ⟨f, name, bytes, (validName_eq_false_iff name).2 hn, .inl hi⟩
    · obtain ⟨bytes, hbytes⟩ := Option.ne_none_iff_exists'.1 hfile
      exact ⟨f, name, bytes, (validName_eq_false_iff name).2 hn, .inr ⟨hbytes, hi⟩⟩

end Faults

/-- Settles O11, by the table of faults. -/
theorem faultCodesAreRaisedAsTabled : Obligations.FaultCodesAreRaisedAsTabled := by
  intro i s t hs h
  cases (exec_of_running hs i).symm.trans h
  have raised := effect_fault_iff_raises i hs
  exact ⟨raised .illegalOperation, raised .invalidKind, raised .unmappedAddress, raised .readOnlyWrite,
    raised .reentrantService, raised .invalidBankCount, (raised .invalidName).trans (raises_invalidName_iff s i),
    raised .addressOutOfWindow⟩

/-! ### Failures by the table (R332) -/

section Failures

variable {s t : State} {i : Instr}

theorem Ends.fails_of_response {r : FailReason} (h : Ends s i t) (ht : t.response = some (.fail r)) :
    Fails s i r ∧ t = s.respond (.fail r) := by
  cases h with
  | faults | absent => cases ht
  | fails h =>
    cases ht
    exact ⟨h, rfl⟩
  | succeeds _ hr =>
    rw [ht] at hr
    cases hr

theorem Ends.absent_of_response (h : Ends s i t) (ht : t.response = some .absent) :
    t = s.respond .absent ∧ ∃ name, s.handles.find name = none ∧ i = .lookup name := by
  cases h with
  | faults | fails => cases ht
  | absent name h hi => exact ⟨rfl, name, h, hi⟩
  | succeeds _ hr =>
    rw [ht] at hr
    cases hr

theorem Loads.load_or_loadfile {f : Bool} {name : Name} {bytes : List Byte} (h : Loads s i f name bytes) :
    (∃ bytes, i = .load f name bytes) ∨ ∃ path, i = .loadfile f name path :=
  h.imp (⟨bytes, ·⟩) (·.2)

/-- Bank 0 exists, so a load fails on its bank only with intoBank0 false. -/
theorem Fails.bankOutOfRange_cases (h : Fails s i .bankOutOfRange) (hb : 1 ≤ s.bankCount) :
    (∃ h, s.bankCount ≤ h.bank.toNat ∧ i = .gotoHandle h) ∨
    (s.bankCount ≤ s.currentBank.toNat ∧
      ∃ name, (∃ bytes, i = .load false name bytes) ∨ ∃ path, i = .loadfile false name path) := by
  rcases h with h | ⟨f, name, bytes, hge, hi⟩
  · exact .inl h
  · cases f with
    | false => exact .inr ⟨hge, name, hi.load_or_loadfile⟩
    | true => exact absurd hb (Nat.not_le.2 (Nat.lt_succ_of_le hge))

theorem Fails.duplicateName_cases (h : Fails s i .duplicateName) : ∃ f name, (s.handles.find name).isSome = true ∧
    ((∃ bytes, i = .load f name bytes) ∨ ∃ path, i = .loadfile f name path) := by
  obtain ⟨f, name, bytes, hd, hi⟩ := h
  exact ⟨f, name, hd, hi.load_or_loadfile⟩

theorem Fails.noSpace_cases (h : Fails s i .noSpace) : ∃ f name bytes,
    16384 < s.fillOf (if f then 0 else s.currentBank.toNat) + bytes.length ∧ Loads s i f name bytes := by
  obtain ⟨f, name, bytes, hf, hi⟩ := h
  refine ⟨f, name, bytes, ?_, hi⟩
  cases f <;> exact hf

theorem Fails.allocFail_cases (h : Fails s i .allocFail) : s.answers.alloc = false ∧
    ((∃ f name bytes, i = .load f name bytes) ∨ (∃ f name path, i = .loadfile f name path) ∨
      ∃ n, i = .setbankcount n) := by
  obtain ⟨ha, ⟨f, name, bytes, hi⟩ | hi⟩ := h
  · exact ⟨ha, hi.load_or_loadfile.imp (⟨f, name, ·⟩) (.inl ⟨f, name, ·⟩)⟩
  · exact ⟨ha, .inr (.inr hi)⟩

end Failures

/-- Settles O12, by the table of failures. -/
theorem failuresLeaveTheStateUnchanged : Obligations.FailuresLeaveTheStateUnchanged := by
  intro i s t hs hb h
  cases (exec_of_running hs i).symm.trans h
  have ends := effect_ends i s
  have row : ∀ {r}, (effect i s).response = some (.fail r) → Fails s i r := fun hr => (ends.fails_of_response hr).1
  refine ⟨fun r hr => ?unchanged, ends.absent_of_response, row, fun hr => (row hr).bankOutOfRange_cases hb,
    fun hr => (row hr).duplicateName_cases, fun hr => (row hr).noSpace_cases, fun hr => (row hr).allocFail_cases, row⟩
  case unchanged =>
    have heq : effect i s = s.respond (.fail r) := (ends.fails_of_response hr).2
    exact ⟨heq, (congrArg State.fault heq).trans hs⟩

/-! ### Two services (R129, R337) -/

/-- The state after a SERVICE of kind `k` and its handler, if it has one, which answered `x`. -/
def State.serviced (s : State) (k : Kind) (x : ServiceResult) : State :=
  { s with IF := setBit s.IF k.val false, IME := false, svc := .idle, response := some (.service x) }

theorem exists_serviced {s : State} (hs : s.fault = none) (hi : s.svc = .idle) (k : Kind) (r : Bool) :
    ∃ x, if s.hasHandler k then exec (.hret r) (s.acknowledge k) = .next (s.serviced k x)
      else s.serviced k x = s.acknowledge k := by
  cases h : s.hasHandler k with
  | true =>
    have hack := acknowledge_of_handler h
    have hrun : (s.acknowledge k).fault = none := (State.acknowledge_fault ..).trans hs
    have hsvc : (s.acknowledge k).svc = .inHandler k := (congrArg State.svc hack :)
    refine ⟨if r then .HANDLED_OK else .HANDLED_FAIL, ?_⟩
    rw [if_pos rfl, (hretEndsTheHandler r _ hrun).1 k hsvc, hack, State.acknowledge_IF]
    rfl
  | false =>
    refine ⟨.NONE, ?_⟩
    rw [if_neg Bool.false_ne_true, acknowledge_of_no_handler h, State.acknowledge_IF, State.serviced, ← hi]

theorem serviced_IF (s : State) (k : Kind) (x : ServiceResult) (n : Nat) :
    (s.serviced k x).IF.getLsbD n = (decide (n ≠ k.val) && s.IF.getLsbD n) := getLsbD_setBit_false s.IF k n

theorem serviced_requesting (s : State) (j m : Kind) (x : ServiceResult) :
    (s.serviced j x).requesting m = (decide (m ≠ j) && s.requesting m) := by
  have hne : decide (m.val ≠ j.val) = decide (m ≠ j) := by simp [Fin.ext_iff]
  rw [State.requesting, serviced_IF, hne, State.requesting]
  ac_rfl

/-- With kinds `j < k` the two lowest requesting, SERVICE of `j` leaves `k` the lowest. -/
theorem serviced_lowestRequesting {s : State} {j k : Kind} (x : ServiceResult) (hjk : j.val < k.val)
    (hk : s.requesting k = true) (hlow : ∀ m : Kind, m.val < k.val → m ≠ j → s.requesting m = false) :
    (s.serviced j x).lowestRequesting = some k := by
  refine lowestRequesting_of ?_ fun m hm => ?_
  · have hne : k ≠ j := fun h => hjk.ne (congrArg Fin.val h.symm)
    simp [serviced_requesting, hk, hne]
  · by_cases hmj : m = j
    · simp [serviced_requesting, hmj]
    · simp [serviced_requesting, hlow m hm hmj]

/-- Settles O22: SERVICE takes j, IME stays false until RETI, and k is the lowest requesting kind left. -/
theorem twoServicesFollowPriority : Obligations.TwoServicesFollowPriority := by
  intro s j k r hs hi hm hjk hj hk hlow
  have hfirst : s.lowestRequesting = some j :=
    lowestRequesting_of hj fun m hmj => hlow m (hmj.trans hjk) fun h => hmj.ne (congrArg Fin.val h)
  obtain ⟨x, hx⟩ := exists_serviced hs hi j r
  have hsecond : (s.serviced j x).lowestRequesting = some k := serviced_lowestRequesting x hjk hk hlow
  have hpend : s.IF.getLsbD k.val = true := ((requesting_iff s k).1 hk).2.1
  have hreti : exec .reti (s.serviced j x) = .next { s.serviced j x with IME := true, response := some .ok } :=
    exec_of_running (s := s.serviced j x) hs .reti
  refine ⟨s.acknowledge j, s.serviced j x, _, _, exec_service_acknowledge hs hi hm hfirst, hx, ?_, ?_, rfl,
    exec_service_none hs rfl (.inl rfl), hreti, exec_service_acknowledge hs rfl rfl hsecond, fun n _ => ?_⟩
  · rw [serviced_IF]
    simp
  · rw [serviced_IF, hpend]
    simp [hjk.ne']
  · rw [acknowledge_IF]
    exact (congrArg _ (serviced_IF s j x n)).trans (by ac_rfl)

/-! ### How IF changes (R334, R335) -/

/-- A transaction that changes IF has its instruction's effect: the answer of a faulted state changes nothing. -/
theorem exec_changes_IF {i : Instr} {s t : State} (h : exec i s = .next t) (hne : t.IF ≠ s.IF) : t = effect i s := by
  rcases (exec_eq_next_iff i s t).1 h with ⟨_, _, rfl⟩ | ⟨_, rfl⟩
  · exact absurd rfl hne
  · rfl

section Bits

variable {v : Byte} {j : Kind} {n : Nat}

theorem getLsbD_setBit_true_ne_false (hv : v.getLsbD n = true) : (setBit v j.val true).getLsbD n ≠ false := by
  simp [getLsbD_setBit_true, hv]

theorem getLsbD_setBit_false_ne_true (hv : v.getLsbD n = false) : (setBit v j.val false).getLsbD n ≠ true := by
  simp [getLsbD_setBit_false, hv]

theorem eq_of_setBit_true_sets (hv : v.getLsbD n = false) (h : (setBit v j.val true).getLsbD n = true) : n = j.val := by
  simpa [getLsbD_setBit_true, hv] using h

theorem eq_of_setBit_false_clears (hv : v.getLsbD n = true) (h : (setBit v j.val false).getLsbD n = false) :
    n = j.val := by
  simpa [getLsbD_setBit_false, hv] using h

end Bits

theorem eligible_of_lowestRequesting {s : State} {k : Kind} (hm : s.IME = true) (hl : s.lowestRequesting = some k) :
    s.eligible k = true ∧ ∀ j : Kind, j.val < k.val → s.eligible j = false := by
  obtain ⟨hk, hlow⟩ := (lowestRequesting_eq_some_iff s k).1 hl
  exact ⟨by simp [State.eligible, hm, hk], fun j hj => by simp [State.eligible, hlow j hj]⟩

/-- Settles O23, by the ways IF changes: those that set a bit clear none, and CANCEL and SERVICE clear their own kind's. -/
theorem pendingEndsOnlyByServiceOrCancel : Obligations.PendingEndsOnlyByServiceOrCancel := by
  intro i s t k h hset hclear
  cases exec_changes_IF h fun heq => by rw [heq, hset] at hclear; cases hclear
  rcases effect_IF i s with hIF | ⟨_, _, _, _, hIF⟩ | ⟨j, _, _, hIF⟩ | ⟨j, hi, hIF⟩ | ⟨j, hi, hm, hl, hIF⟩ |
    ⟨g, l, _, _, _, hIF⟩ | ⟨_, _, hIF⟩ | ⟨v, hi, hIF⟩ <;> rw [hIF] at hclear
  · exact absurd (hset.symm.trans hclear) nofun
  · exact absurd hclear (getLsbD_setBit_true_ne_false hset)
  · exact absurd hclear (getLsbD_setBit_true_ne_false hset)
  · cases Fin.ext (eq_of_setBit_false_clears hset hclear)
    exact .inr (.inl hi)
  · cases Fin.ext (eq_of_setBit_false_clears hset hclear)
    exact .inl ⟨hi, eligible_of_lowestRequesting hm hl⟩
  · exact absurd hclear (getLsbD_setBit_true_ne_false hset)
  · exact absurd hclear (getLsbD_setBit_true_ne_false hset)
  · exact .inr (.inr ⟨v, hclear, hi⟩)

/-- Settles O24, by the ways IF changes: each source sets its own kind's bit, and CANCEL and SERVICE set none. -/
theorem interruptSources : Obligations.InterruptSources := by
  intro i s t k h hclear hset
  cases exec_changes_IF h fun heq => by rw [heq, hclear] at hset; cases hset
  rcases effect_IF i s with hIF | ⟨hi, he, hc, hedge, hIF⟩ | ⟨j, hi, hj, hIF⟩ | ⟨j, _, hIF⟩ | ⟨j, _, _, _, hIF⟩ |
    ⟨g, l, hi, hg, hl, hIF⟩ | ⟨hi, hd, hIF⟩ | ⟨v, hi, hIF⟩ <;> rw [hIF] at hset
  · exact absurd (hclear.symm.trans hset) nofun
  · have hb := speedSelects_timerBit s.clockSpeed
    exact .inl ⟨hi, eq_of_setBit_true_sets hclear hset, he, hc, _, hb, (fallingEdge_iff_endsPeriod hb _).1 hedge⟩
  · exact .inr (.inr (.inr (.inl ⟨j, hi, eq_of_setBit_true_sets hclear hset, hj⟩)))
  · exact absurd hset (getLsbD_setBit_false_ne_true hclear)
  · exact absurd hset (getLsbD_setBit_false_ne_true hclear)
  · exact .inr (.inl ⟨g, l, hi, eq_of_setBit_true_sets hclear hset, hg, hl⟩)
  · exact .inr (.inr (.inl ⟨hi, eq_of_setBit_true_sets hclear hset, hd⟩))
  · exact .inr (.inr (.inr (.inr ⟨v, hi, hset⟩)))

end Sys2Proof.Machine

/-! PROOF. The statements of 70_reset_and_hazards.md: the launch state field by field (R370), and no kind eligible at launch
(R372). -/

namespace Sys2Proof.Machine

theorem hasHandler_launch (c : Config) (w : WallTime) (x : BitVec 16) (k : Kind) :
    (State.launch c w x).hasHandler k = false := by
  simp only [State.hasHandler, State.launch, List.getD_eq_getElem?_getD, List.getElem?_getD_replicate_default_eq]

/-- At launch no byte is loaded and every bank was made at creation (R40), so a byte of a bank holds its initial value. -/
theorem bankByte_launch {c : Config} {b : Nat} (w : WallTime) (x : BitVec 16) (hb : b < c.defaultBankCount) (o : Nat) :
    (State.launch c w x).bankByte b o = Config.bankInitContent b o := by
  have horigin : (State.launch c w x).origins[b]? = some .created := List.getElem?_replicate_of_lt hb
  have hunread : (State.launch c w x).banks.read (bankKey b o) = none := rfl
  simp only [State.bankByte, hunread, State.unloadedByte, horigin]

/-- Settles O57: a field that `State.launch` sets to its reset value is equal to it by definition; the rest is the handler
table, the bytes of the banks and their fill. -/
theorem launchStateIsAsTabled : Obligations.LaunchStateIsAsTabled := by
  rintro c w x _ rfl
  exact ⟨rfl, rfl, rfl, hasHandler_launch c w x, List.length_replicate, rfl, rfl, rfl, rfl, rfl, rfl, rfl, rfl, rfl, rfl,
    rfl, rfl, fun b o hb _ => ⟨bankByte_launch w x hb o, fillOf_launch c w x b⟩, rfl, fun _ => rfl, rfl⟩

theorem eligible_of_not_IME {s : State} (h : s.IME = false) (k : Kind) : s.eligible k = false := by
  rw [State.eligible, h, Bool.false_and]

/-- Settles O58: at launch IME is false, the service phase is idle and no fault is recorded. -/
theorem noKindIsEligibleAtLaunch : Obligations.NoKindIsEligibleAtLaunch :=
  fun _ _ _ k => ⟨eligible_of_not_IME rfl k, exec_service_none rfl rfl (.inl rfl)⟩

end Sys2Proof.Machine
